-- ==== Sys2Proof/Word.lean ====
section
/-! DEFINITION. The widths of CRC8U's values (spec 00_scope.md R7, R8): plain bit vectors, bit 0 the least
significant bit (20_memory.md R29). -/

namespace Sys2Proof

/-- One byte: a DATA operand, a payload byte, the CRC register, the checksum byte (R7, R30). -/
abbrev Byte := BitVec 8

/-- One command word `cmd[15:0]` (R36). -/
abbrev CmdWord := BitVec 16

/-- A raw field, 20 bits unsigned (R7, R51, R52). -/
abbrev RawField := BitVec 20

/-- The `hum_fx` bus: 25 bits unsigned, least significant bit worth 2^-18 percent (R7, R53). -/
abbrev HumFx := BitVec 25

/-- The `temp_fx` bus: 26 bits two's complement, least significant bit worth 2^-17 degrees Celsius (R7, R54). -/
abbrev TempFx := BitVec 26

end Sys2Proof
end

