-- ==== Sys2Proof/Syntax.lean ====
section
/-! DEFINITION. The commands of CRC8U as syntax: one constructor for each row of spec/opcode_table.json
(spec 30_encoding.md R39). -/

namespace Sys2Proof

/-- A command. An operand byte is carried only where the command reads DATA (R37): the ignored DATA of NOP, CRC.INIT,
FRM.START and ERR.CLR has no effect (R41), as in the decoder of R39. The payload index of PAY.WR lies in OP (R38), so each
index is a row, and a constructor, of its own. -/
inductive Instr where
  /-- NOP, OP 0x00 (R64). -/
  | nop
  /-- CRC.INIT, OP 0x01 (R46). -/
  | crcInit
  /-- CRC.FEED b, OP 0x02 (R47). -/
  | crcFeed (b : Byte)
  /-- FRM.START, OP 0x03 (R58). -/
  | frmStart
  /-- FRM.PUSH b, OP 0x04 (R59). -/
  | frmPush (b : Byte)
  /-- ERR.CLR, OP 0x05 (R65). -/
  | errClr
  /-- PAY.WR 0, b, OP 0x08 (R50). -/
  | payWr0 (b : Byte)
  /-- PAY.WR 1, b, OP 0x09 (R50). -/
  | payWr1 (b : Byte)
  /-- PAY.WR 2, b, OP 0x0A (R50). -/
  | payWr2 (b : Byte)
  /-- PAY.WR 3, b, OP 0x0B (R50). -/
  | payWr3 (b : Byte)
  /-- PAY.WR 4, b, OP 0x0C (R50). -/
  | payWr4 (b : Byte)
  /-- PAY.WR 5, b, OP 0x0D (R50). -/
  | payWr5 (b : Byte)
  deriving DecidableEq, Repr

end Sys2Proof
end

