-- ==== Sys2Proof/WellFormed.lean ====
section
/-! DEFINITION. Well-formedness. A command's operand is a byte and its payload index a constructor, so no ill-formed
`Instr` can be built. The checks of the spec stand on the assembler's lines, whose operands are written numbers: "An
assembler refuses a `b` outside 0..255 and an `i` outside 0..5" (30_encoding.md R43). A command is well formed when the line
that spells it is. -/

namespace Sys2Proof

/-- One line of the assembly language of R43, or a pseudo-instruction of R44, with its numbers as written. -/
inductive AsmLine where
  | nop
  | crcInit
  | crcFeed (b : Nat)
  | frmStart
  | frmPush (b : Nat)
  | errClr
  /-- `PAY.WR i, b`. -/
  | payWr (i b : Nat)
  /-- `.word w`: the word as is, which may be a reserved encoding. -/
  | word (w : Nat)
  /-- `CRC.CALC b0, ..., bn-1`, n ≥ 0. -/
  | crcCalc (bs : List Nat)
  /-- `PAY.LOAD b0, ..., b5`. -/
  | payLoad (bs : List Nat)
  /-- `FRM.LOAD b0, ..., b6`. -/
  | frmLoad (bs : List Nat)
  deriving DecidableEq, Repr

/-- A written number is a byte: 0 to 255 (R43). -/
def isByte (b : Nat) : Bool := decide (b < 256)

/-- The checks of R43 and R44: every `b` a byte, `i` from 0 to 5, a word of 16 bits, six bytes for PAY.LOAD, exactly
seven for FRM.LOAD. -/
def AsmLine.wellFormed : AsmLine → Bool
  | .nop => true
  | .crcInit => true
  | .crcFeed b => isByte b
  | .frmStart => true
  | .frmPush b => isByte b
  | .errClr => true
  | .payWr i b => decide (i ≤ 5) && isByte b
  | .word w => decide (w < 65536)
  | .crcCalc bs => bs.all isByte
  | .payLoad bs => bs.all isByte && decide (bs.length = 6)
  | .frmLoad bs => bs.all isByte && decide (bs.length = 7)

/-- The assembler line that spells a command (R43). -/
def Instr.line : Instr → AsmLine
  | .nop => .nop
  | .crcInit => .crcInit
  | .crcFeed b => .crcFeed b.toNat
  | .frmStart => .frmStart
  | .frmPush b => .frmPush b.toNat
  | .errClr => .errClr
  | .payWr0 b => .payWr 0 b.toNat
  | .payWr1 b => .payWr 1 b.toNat
  | .payWr2 b => .payWr 2 b.toNat
  | .payWr3 b => .payWr 3 b.toNat
  | .payWr4 b => .payWr 4 b.toNat
  | .payWr5 b => .payWr 5 b.toNat

/-- A command is well formed when its line is. -/
def Instr.wellFormed (i : Instr) : Bool := i.line.wellFormed

end Sys2Proof
end

