-- ==== Sys2Proof/Decode.lean ====
section
/-! DEFINITION. The command decoder, total on every 16-bit word, and after it the encoder, the opcode table as data, and
the host's numbering of a word (spec 30_encoding.md R36 to R41). -/

namespace Sys2Proof

/-- OP = cmd[15:8] (R36). -/
def opOf (w : CmdWord) : Byte := w.extractLsb' 8 8

/-- DATA = cmd[7:0], used as is (R36, R37). -/
def dataOf (w : CmdWord) : Byte := w.extractLsb' 0 8

/-- The word with these two fields: OP above DATA (R36). -/
def wordOf (op data : Byte) : CmdWord := op ++ data

/-- What a word decodes to: a command of the table, or RESERVED(OP), rejected by that name (R39). -/
inductive Decoded where
  | command (i : Instr)
  | reserved (op : Byte)
  deriving DecidableEq, Repr

/-- The decoder of R39: from OP alone (R36). Every OP outside the table is reserved (R40). -/
def decode (w : CmdWord) : Decoded :=
  match opOf w with
  | 0x00#8 => .command .nop
  | 0x01#8 => .command .crcInit
  | 0x02#8 => .command (.crcFeed (dataOf w))
  | 0x03#8 => .command .frmStart
  | 0x04#8 => .command (.frmPush (dataOf w))
  | 0x05#8 => .command .errClr
  | 0x08#8 => .command (.payWr0 (dataOf w))
  | 0x09#8 => .command (.payWr1 (dataOf w))
  | 0x0A#8 => .command (.payWr2 (dataOf w))
  | 0x0B#8 => .command (.payWr3 (dataOf w))
  | 0x0C#8 => .command (.payWr4 (dataOf w))
  | 0x0D#8 => .command (.payWr5 (dataOf w))
  | op => .reserved op

/-- The OP of each command (R39). -/
def Instr.op : Instr → Byte
  | .nop => 0x00#8
  | .crcInit => 0x01#8
  | .crcFeed _ => 0x02#8
  | .frmStart => 0x03#8
  | .frmPush _ => 0x04#8
  | .errClr => 0x05#8
  | .payWr0 _ => 0x08#8
  | .payWr1 _ => 0x09#8
  | .payWr2 _ => 0x0A#8
  | .payWr3 _ => 0x0B#8
  | .payWr4 _ => 0x0C#8
  | .payWr5 _ => 0x0D#8

/-- The byte operand of the commands that read DATA (R37). -/
def Instr.operandOf : Instr → Option Byte
  | .nop => none
  | .crcInit => none
  | .crcFeed b => some b
  | .frmStart => none
  | .frmPush b => some b
  | .errClr => none
  | .payWr0 b => some b
  | .payWr1 b => some b
  | .payWr2 b => some b
  | .payWr3 b => some b
  | .payWr4 b => some b
  | .payWr5 b => some b

/-- The word of a command: OP above DATA, with DATA = 0x00 for a command without an operand (R36, R43). -/
def encode (i : Instr) : CmdWord := wordOf i.op (i.operandOf.getD 0x00#8)

/-- The bits of a command's word that say which command it is with which operand: all 16 where DATA is read, OP alone
where it is ignored (R37, R41). -/
def Instr.significantBits (i : Instr) : CmdWord :=
  match i.operandOf with
  | some _ => 0xFFFF#16
  | none => 0xFF00#16

/-- One row of the table of R39: a word w is the command when `w &&& mask = pattern`. -/
structure OpcodeRow where
  mnemonic : String
  pattern : CmdWord
  mask : CmdWord
  deriving DecidableEq, Repr

/-- The opcode table of R39 (its mnemonics as spec/opcode_table.json spells them). -/
def opcodeTable : List OpcodeRow :=
  [ ⟨"NOP", 0x0000#16, 0xFF00#16⟩, ⟨"CRC.INIT", 0x0100#16, 0xFF00#16⟩, ⟨"CRC.FEED", 0x0200#16, 0xFF00#16⟩,
    ⟨"FRM.START", 0x0300#16, 0xFF00#16⟩, ⟨"FRM.PUSH", 0x0400#16, 0xFF00#16⟩, ⟨"ERR.CLR", 0x0500#16, 0xFF00#16⟩,
    ⟨"PAY.WR_0", 0x0800#16, 0xFF00#16⟩, ⟨"PAY.WR_1", 0x0900#16, 0xFF00#16⟩, ⟨"PAY.WR_2", 0x0A00#16, 0xFF00#16⟩,
    ⟨"PAY.WR_3", 0x0B00#16, 0xFF00#16⟩, ⟨"PAY.WR_4", 0x0C00#16, 0xFF00#16⟩, ⟨"PAY.WR_5", 0x0D00#16, 0xFF00#16⟩ ]

/-- The mnemonic of a command's row. -/
def Instr.mnemonic : Instr → String
  | .nop => "NOP"
  | .crcInit => "CRC.INIT"
  | .crcFeed _ => "CRC.FEED"
  | .frmStart => "FRM.START"
  | .frmPush _ => "FRM.PUSH"
  | .errClr => "ERR.CLR"
  | .payWr0 _ => "PAY.WR_0"
  | .payWr1 _ => "PAY.WR_1"
  | .payWr2 _ => "PAY.WR_2"
  | .payWr3 _ => "PAY.WR_3"
  | .payWr4 _ => "PAY.WR_4"
  | .payWr5 _ => "PAY.WR_5"

/-- The row of the table a word matches, if any. -/
def matchingRowOf (w : CmdWord) : Option OpcodeRow :=
  opcodeTable.find? (fun r => w &&& r.mask == r.pattern)

/-- The command word whose bits, numbered as spec/opcode_table.json numbers them, are the low `nbits` bits of `w`; the
bits above are 0. A command word is driven whole on `cmd[15:0]` (R29, R36), so its bits have that numbering already
(log 11). -/
def tableWord (nbits w : Nat) : CmdWord := BitVec.ofNat 16 (w % 2 ^ nbits)

/-- The command the decoder reads from a table word; none where the OP is reserved. -/
def decodeTableWord (nbits w : Nat) : Option Instr :=
  match decode (tableWord nbits w) with
  | .command i => some i
  | .reserved _ => none

end Sys2Proof
end

