-- ==== Sys2Proof/Config.lean ====
section
/-! DEFINITION. The fixed constants of CRC8U (spec 00_scope.md R7). "No parameter is left open to the model"
(R7, D8), and no rule calls a result undefined, so there is no free value here. -/

namespace Sys2Proof.Config

open Sys2Proof

/-- The CRC polynomial x^8 + x^5 + x^4 + 1, its x^8 term implicit (R2, R7). -/
def crcPoly : Byte := 0x31#8

/-- The CRC register's initial value (R2, R7). -/
def crcInit : Byte := 0xFF#8

/-- Update iterations for one input byte (R45). -/
def crcIterations : Nat := 8

/-- The payload's length in bytes (R7). -/
def payloadLength : Nat := 6

/-- The frame's length in bytes: the payload and the checksum byte (R7). -/
def frameLength : Nat := 7

/-- Both scaled outputs are the raw field times this: 100 / 2^20 = 25 / 2^18 (R53) and 200 / 2^20 = 25 / 2^17 (R54). -/
def scaleFactor : Nat := 25

/-- 50 degrees Celsius in units of 2^-17 (R54). -/
def tempOffset : Nat := 6553600

/-- Fractional bits of `hum_fx` (R53). -/
def humFractionBits : Nat := 18

/-- Fractional bits of `temp_fx` (R54). -/
def tempFractionBits : Nat := 17

end Sys2Proof.Config
end

