-- ==== Sys2Proof/Machine/State.lean ====
section
/-! DEFINITION. The state of CRC8U: the 73 bits of spec 10_state.md R22, each register under its own name, and beside them
the host's coming inputs (R10, R23, R89). Plain data throughout. -/

namespace Sys2Proof.Machine

open Sys2Proof

/-- The frame state FST (R17), three-valued as I2 asks; its 2-bit codes are `FrameState.code` in Machine/Flags.lean. -/
inductive FrameState where
  | idle
  | active
  | done
  deriving DecidableEq, Repr

/-- A cause an error action can be raised with (R69). -/
inductive Cause where
  /-- A reserved OP (R70). -/
  | illegalCmd
  /-- FRM.PUSH outside ACTIVE (R71). -/
  | frameSeq
  /-- CRC.INIT, CRC.FEED or PAY.WR in ACTIVE (R72). -/
  | frameConflict
  deriving DecidableEq, Repr

/-- The contents of ECAUSE (R20): NONE, or the first cause since the last clear. -/
inductive ECause where
  | none
  | illegalCmd
  | frameSeq
  | frameConflict
  deriving DecidableEq, Repr

/-- The payload register file P[0] to P[5] (R15). -/
structure Payload where
  p0 : Byte
  p1 : Byte
  p2 : Byte
  p3 : Byte
  p4 : Byte
  p5 : Byte
  deriving DecidableEq, Repr

/-- The inputs the block samples at one rising edge of `clk` (R10, R23). -/
structure Edge where
  rst : Bool
  cmdValid : Bool
  cmd : CmdWord
  deriving DecidableEq, Repr

/-- The machine: the architectural state of R22, and `edges`, the model's own field. -/
structure State where
  /-- CRC, 8 bits (R14). -/
  crc : Byte
  /-- P[0..5], six bytes (R15). -/
  payload : Payload
  /-- CHK, 8 bits (R16). -/
  chk : Byte
  /-- FST, the frame state (R17). -/
  fst : FrameState
  /-- IDX, 3 bits (R18). -/
  idx : BitVec 3
  /-- MATCH, 1 bit (R19). -/
  matched : Bool
  /-- ERR, 1 bit, sticky (R20). -/
  err : Bool
  /-- ECAUSE, 2 bits (R20). -/
  ecause : ECause
  /-- The inputs the host supplies at the coming edges, oldest first (R10, R89): the model's own field (log 1). -/
  edges : List Edge
  deriving DecidableEq, Repr

/-- Why the machine could stop with a fault. It has no constructor, because nothing stops the block: "An error never stops the
block" (R68), "The block never halts" (R89). Errors are the flags ERR and ECAUSE, taken by `raiseError`. -/
inductive Fault where
  deriving DecidableEq, Repr

/-- Why a step could be refused. No step of this model is. -/
inductive Refusal where
  /-- For an arm of `exec` whose command has no meaning yet. Raised by nobody: every arm has its meaning. Safe. -/
  | notModelled (mnemonic : String)
  deriving DecidableEq, Repr

/-- The state after an edge with `rst = 1` (R24), with no further edge supplied (log 1). -/
def State.reset : State where
  crc := 0xFF#8
  payload := ⟨0x00#8, 0x00#8, 0x00#8, 0x00#8, 0x00#8, 0x00#8⟩
  chk := 0x00#8
  fst := .idle
  idx := 0#3
  matched := false
  err := false
  ecause := .none
  edges := []

end Sys2Proof.Machine
end

