-- ==== Sys2Proof/Machine/Flags.lean ====
section
/-! DEFINITION. The flag computations: the codes of FST and ECAUSE, the checksum comparison that MATCH latches, and the
first-cause rule (spec 10_state.md R17, R20; 42_frame.md R60; 60_exceptions.md R69, R74). -/

namespace Sys2Proof.Machine

open Sys2Proof

/-- The 2-bit encoding of FST (R17, D26). -/
def FrameState.code : FrameState → BitVec 2
  | .idle => 0b00#2
  | .active => 0b01#2
  | .done => 0b10#2

/-- The 2-bit encoding of ECAUSE (R20, D26). -/
def ECause.code : ECause → BitVec 2
  | .none => 0b00#2
  | .illegalCmd => 0b01#2
  | .frameSeq => 0b10#2
  | .frameConflict => 0b11#2

/-- ECAUSE's contents for a cause (R69: code(E)). -/
def Cause.recorded : Cause → ECause
  | .illegalCmd => .illegalCmd
  | .frameSeq => .frameSeq
  | .frameConflict => .frameConflict

/-- ECAUSE after an error action: written only where ERR = 0, so the first cause is kept (R69, R74). -/
def ecauseAfter (err : Bool) (old : ECause) (c : Cause) : ECause :=
  if err then old else c.recorded

/-- MATCH at the seventh byte: equality of CRC and the received byte (R60). -/
def checksumMatches (crc data : Byte) : Bool := crc == data

end Sys2Proof.Machine
end

