-- ==== Sys2Proof/Machine/Operands.lean ====
section
/-! DEFINITION. The operand forms: the payload register file and its two ways of being indexed, by the index in OP and
by IDX (spec 20_memory.md R26, 30_encoding.md R38, 42_frame.md R59). -/

namespace Sys2Proof.Machine

open Sys2Proof

/-- P[k]. -/
def Payload.read (p : Payload) (k : Fin 6) : Byte :=
  match k with
  | 0 => p.p0
  | 1 => p.p1
  | 2 => p.p2
  | 3 => p.p3
  | 4 => p.p4
  | 5 => p.p5

/-- P[k] <- b. -/
def Payload.write (p : Payload) (k : Fin 6) (b : Byte) : Payload :=
  match k with
  | 0 => { p with p0 := b }
  | 1 => { p with p1 := b }
  | 2 => { p with p2 := b }
  | 3 => { p with p3 := b }
  | 4 => { p with p4 := b }
  | 5 => { p with p5 := b }

/-- P[0..5] in index order, which is the order a frame's bytes arrive in (R28). -/
def Payload.bytes (p : Payload) : List Byte := [p.p0, p.p1, p.p2, p.p3, p.p4, p.p5]

/-- The payload register IDX selects: P[IDX] while IDX ≤ 5, none for the checksum byte (R59). -/
def payloadIndexOf (idx : BitVec 3) : Option (Fin 6) :=
  if h : idx.toNat < 6 then some ⟨idx.toNat, h⟩ else none

end Sys2Proof.Machine
end

