-- ==== Sys2Proof/Machine/Ops.lean ====
section
/-! DEFINITION. The shared operations over the registers: the CRC byte update, the error action, the guard against an
active frame, and the register updates the commands and the reset edge are made of. -/

namespace Sys2Proof.Machine

open Sys2Proof

/-- One iteration of the update: shift left by one, truncating, and XOR the polynomial where the high bit was set (R45). -/
def crc8Shift (v : Byte) : Byte :=
  if v.msb then (v <<< 1) ^^^ Config.crcPoly else v <<< 1

/-- `n` iterations (R45). -/
def crc8Shifts : Nat → Byte → Byte
  | 0, v => v
  | n + 1, v => crc8Shifts n (crc8Shift v)

/-- The byte update `crc8_update(r, d)` (R45), one atomic step of the block (R31). -/
def crc8Update (r d : Byte) : Byte := crc8Shifts Config.crcIterations (r ^^^ d)

/-- THE ERROR ACTION `raise E` (R69), the hardware's only exception: ECAUSE keeps the first cause, ERR is set, and no
other register is written. There is nothing to return from (R75). -/
def raiseError (c : Cause) (s : State) : State :=
  { s with err := true, ecause := ecauseAfter s.err s.ecause c }

/-- ERR <- 0 and ECAUSE <- NONE (R65). -/
def clearError (s : State) : State := { s with err := false, ecause := .none }

/-- CRC <- v. -/
def setCrc (v : Byte) (s : State) : State := { s with crc := v }

/-- P[k] <- b, and the frame state returns to IDLE with IDX and MATCH cleared (R50). -/
def writePayloadDirect (k : Fin 6) (b : Byte) (s : State) : State :=
  { s with payload := s.payload.write k b, fst := .idle, idx := 0#3, matched := false }

/-- A frame begins (R58). -/
def startFrame (s : State) : State :=
  { s with crc := Config.crcInit, idx := 0#3, fst := .active, matched := false }

/-- Payload byte IDX of a frame arrives (R59). -/
def takePayloadByte (k : Fin 6) (b : Byte) (s : State) : State :=
  { s with payload := s.payload.write k b, crc := crc8Update s.crc b, idx := s.idx + 1#3 }

/-- The checksum byte of a frame arrives: latched and compared with CRC as it was before the edge, and not fed into it
(R59, R60). -/
def takeChecksumByte (b : Byte) (s : State) : State :=
  { s with chk := b, matched := checksumMatches s.crc b, fst := .done, idx := 7#3 }

/-- The registers at an edge with `rst = 1` (R80): every one takes its reset value; the host's coming edges are no part of
the block and stay. -/
def resetRegisters (s : State) : State := { State.reset with edges := s.edges }

/-- The guard of CRC.INIT, CRC.FEED and PAY.WR: FRAME_CONFLICT while a frame is active, else the command's effect (R72). -/
def unlessActive (effect : State → State) (s : State) : Host.Outcome State Fault Refusal :=
  if s.fst = .active then .next (raiseError .frameConflict s) else .next (effect s)

end Sys2Proof.Machine
end

