-- ==== Sys2Proof/Machine/Control.lean ====
section
/-! DEFINITION. The control commands (spec 43_control.md). -/

namespace Sys2Proof.Machine

open Sys2Proof

/-- NOP (R64): no write, in every state. -/
def execNop (s : State) : Host.Outcome State Fault Refusal := .next s

/-- ERR.CLR (R65), legal in every state. -/
def execErrClr (s : State) : Host.Outcome State Fault Refusal := .next (clearError s)

end Sys2Proof.Machine
end

