-- ==== Sys2Proof/Machine/Crc.lean ====
section
/-! DEFINITION. The CRC-8 generator's commands (spec 40_crc.md). -/

namespace Sys2Proof.Machine

open Sys2Proof

/-- CRC.INIT (R46). -/
def execCrcInit (s : State) : Host.Outcome State Fault Refusal :=
  unlessActive (setCrc Config.crcInit) s

/-- CRC.FEED b (R47). -/
def execCrcFeed (b : Byte) (s : State) : Host.Outcome State Fault Refusal :=
  unlessActive (fun s => setCrc (crc8Update s.crc b) s) s

end Sys2Proof.Machine
end

