-- ==== Sys2Proof/Machine/Frame.lean ====
section
/-! DEFINITION. The frame receiver's commands (spec 42_frame.md). -/

namespace Sys2Proof.Machine

open Sys2Proof

/-- The next byte of the frame, by IDX: a payload byte while IDX ≤ 5, else the checksum byte (R59; IDX = 7 in ACTIVE, which
no run from reset reaches, takes the pseudocode's last arm: log 5). -/
def takeFrameByte (b : Byte) (s : State) : State :=
  match payloadIndexOf s.idx with
  | some k => takePayloadByte k b s
  | none => takeChecksumByte b s

/-- FRM.START (R58), legal in every state. -/
def execFrmStart (s : State) : Host.Outcome State Fault Refusal := .next (startFrame s)

/-- FRM.PUSH b (R59, R60); FRAME_SEQ outside ACTIVE (R61). -/
def execFrmPush (b : Byte) (s : State) : Host.Outcome State Fault Refusal :=
  if s.fst = .active then .next (takeFrameByte b s) else .next (raiseError .frameSeq s)

end Sys2Proof.Machine
end

