-- ==== Sys2Proof/Machine/Unpack.lean ====
section
/-! DEFINITION. The unpacker's command PAY.WR, one meaning for each payload index (spec 41_unpack.md R50). -/

namespace Sys2Proof.Machine

open Sys2Proof

/-- PAY.WR i, b over the index in OP (R50). -/
def payWr (k : Fin 6) (b : Byte) (s : State) : Host.Outcome State Fault Refusal :=
  unlessActive (writePayloadDirect k b) s

/-- PAY.WR 0, b (R50). -/
def execPayWr0 (b : Byte) (s : State) : Host.Outcome State Fault Refusal := payWr 0 b s

/-- PAY.WR 1, b (R50). -/
def execPayWr1 (b : Byte) (s : State) : Host.Outcome State Fault Refusal := payWr 1 b s

/-- PAY.WR 2, b (R50). -/
def execPayWr2 (b : Byte) (s : State) : Host.Outcome State Fault Refusal := payWr 2 b s

/-- PAY.WR 3, b (R50). -/
def execPayWr3 (b : Byte) (s : State) : Host.Outcome State Fault Refusal := payWr 3 b s

/-- PAY.WR 4, b (R50). -/
def execPayWr4 (b : Byte) (s : State) : Host.Outcome State Fault Refusal := payWr 4 b s

/-- PAY.WR 5, b (R50). -/
def execPayWr5 (b : Byte) (s : State) : Host.Outcome State Fault Refusal := payWr 5 b s

end Sys2Proof.Machine
end

