-- ==== Sys2Proof/Machine/Dispatch.lean ====
section
/-! DEFINITION. One command at one edge: one arm for each constructor of Instr (spec 00_scope.md R10). -/

namespace Sys2Proof.Machine

open Sys2Proof

def exec (i : Instr) (s : State) : Host.Outcome State Fault Refusal :=
  match i with
  | .nop => Sys2Proof.Machine.execNop s
  | .crcInit => Sys2Proof.Machine.execCrcInit s
  | .crcFeed b => Sys2Proof.Machine.execCrcFeed b s
  | .frmStart => Sys2Proof.Machine.execFrmStart s
  | .frmPush b => Sys2Proof.Machine.execFrmPush b s
  | .errClr => Sys2Proof.Machine.execErrClr s
  | .payWr0 b => Sys2Proof.Machine.execPayWr0 b s
  | .payWr1 b => Sys2Proof.Machine.execPayWr1 b s
  | .payWr2 b => Sys2Proof.Machine.execPayWr2 b s
  | .payWr3 b => Sys2Proof.Machine.execPayWr3 b s
  | .payWr4 b => Sys2Proof.Machine.execPayWr4 b s
  | .payWr5 b => Sys2Proof.Machine.execPayWr5 b s

end Sys2Proof.Machine
end

