-- ==== Sys2Proof/Machine/Clock.lean ====
section
/-! DEFINITION. One rising edge of `clk`: the function step(s, in) of spec 00_scope.md R10, over the sampled inputs. -/

namespace Sys2Proof.Machine

open Sys2Proof

/-- A command word is accepted: a command of the table executes, a reserved OP raises ILLEGAL_CMD (R40, R70). -/
def execWord (w : CmdWord) (s : State) : Host.Outcome State Fault Refusal :=
  match decode w with
  | .command i => exec i s
  | .reserved _ => .next (raiseError .illegalCmd s)

/-- The state after one rising edge with the inputs `e` (R10, R13): reset wins over any command (R80, R81), and an edge with
`cmd_valid = 0` carries no command (R42). -/
def clockEdge (e : Edge) (s : State) : Host.Outcome State Fault Refusal :=
  if e.rst then .next (resetRegisters s)
  else if e.cmdValid then execWord e.cmd s
  else .next s

/-- The edge with which the host presents a command word (R13). -/
def Edge.ofWord (w : CmdWord) : Edge := { rst := false, cmdValid := true, cmd := w }

end Sys2Proof.Machine
end

