-- ==== Sys2Proof/Machine/Step.lean ====
section
/-! DEFINITION. The step: the next edge the host supplies. -/

namespace Sys2Proof.Machine

open Sys2Proof

/-- One step takes the oldest edge the host has supplied. With none supplied there is no edge, and "It changes state only at a
rising edge" (R13): the state stays (log 2). -/
def step (s : State) : Host.Outcome State Fault Refusal :=
  match s.edges with
  | [] => .next s
  | e :: rest => clockEdge e { s with edges := rest }

/-- `s` with a command word presented at the very next edge, before the edges already supplied (log 3). -/
def State.withFetchWord (s : State) (nbits w : Nat) : State :=
  { s with edges := Edge.ofWord (tableWord nbits w) :: s.edges }

end Sys2Proof.Machine
end

