-- ==== Sys2Proof/Machine/Asm.lean ====
section
/-! DEFINITION. The assembler of spec 30_encoding.md R43 and R44: a line to its words, the pseudo-instructions' expansions, and the text
form of a line (its lexical details: log 12). -/

namespace Sys2Proof.Machine

open Sys2Proof

/-- A byte operand as DATA. -/
def dataByte (b : Nat) : Byte := BitVec.ofNat 8 b

/-- The word of `PAY.WR i, b`: ((0x08 + i) << 8) | b (R43). -/
def payWrWord (i b : Nat) : CmdWord := wordOf (BitVec.ofNat 8 (0x08 + i)) (dataByte b)

/-- `PAY.WR k, b` for the bytes from index k on (R44). -/
def payWrWords : Nat → List Nat → List CmdWord
  | _, [] => []
  | k, b :: bs => payWrWord k b :: payWrWords (k + 1) bs

/-- The words of a line the checks have passed (R43, R44). -/
def lineWords : AsmLine → List CmdWord
  | .nop => [encode .nop]
  | .crcInit => [encode .crcInit]
  | .crcFeed b => [encode (.crcFeed (dataByte b))]
  | .frmStart => [encode .frmStart]
  | .frmPush b => [encode (.frmPush (dataByte b))]
  | .errClr => [encode .errClr]
  | .payWr i b => [payWrWord i b]
  | .word w => [BitVec.ofNat 16 w]
  | .crcCalc bs => encode .crcInit :: bs.map (fun b => encode (.crcFeed (dataByte b)))
  | .payLoad bs => payWrWords 0 bs
  | .frmLoad bs => encode .frmStart :: bs.map (fun b => encode (.frmPush (dataByte b)))

/-- Assemble one line; an ill-formed line is refused (R43). -/
def assemble (l : AsmLine) : Option (List CmdWord) :=
  if l.wellFormed then some (lineWords l) else none

/-- The edges that present a list of words, one word an edge. -/
def edgesOf (ws : List CmdWord) : List Edge := ws.map Edge.ofWord

/-! The text of a line. -/

/-- A character that separates words on a line. -/
def isBlank (c : Char) : Bool := c == ' ' || c == '\t' || c == '\r'

/-- Without blanks at either end. -/
def trimBlanks (cs : List Char) : List Char :=
  ((cs.dropWhile isBlank).reverse.dropWhile isBlank).reverse

/-- The pieces between separators. -/
def splitOnChar (sep : Char) : List Char → List (List Char)
  | [] => [[]]
  | c :: cs =>
    if c == sep then [] :: splitOnChar sep cs
    else match splitOnChar sep cs with
      | [] => [[c]]
      | piece :: pieces => (c :: piece) :: pieces

/-- The value of a digit. -/
def digitValue (c : Char) : Option Nat :=
  if '0' ≤ c && c ≤ '9' then some (c.toNat - '0'.toNat)
  else if 'A' ≤ c && c ≤ 'F' then some (c.toNat - 'A'.toNat + 10)
  else if 'a' ≤ c && c ≤ 'f' then some (c.toNat - 'a'.toNat + 10)
  else none

/-- Digits in a base, after a value read so far. -/
def parseDigits (base : Nat) : Nat → List Char → Option Nat
  | acc, [] => some acc
  | acc, c :: cs =>
    match digitValue c with
    | some d => if d < base then parseDigits base (acc * base + d) cs else none
    | none => none

/-- A number, decimal or hexadecimal with 0x (R43). -/
def parseNumber : List Char → Option Nat
  | [] => none
  | ['0', 'x'] => none
  | '0' :: 'x' :: cs => parseDigits 16 0 cs
  | c :: cs => parseDigits 10 0 (c :: cs)

/-- The operands after a mnemonic, separated by commas. -/
def parseOperands (cs : List Char) : Option (List Nat) :=
  if trimBlanks cs = [] then some []
  else (splitOnChar ',' cs).mapM (fun piece => parseNumber (trimBlanks piece))

/-- A mnemonic with its operands as a line (R43, R44). -/
def lineOf (mnemonic : String) (operands : List Nat) : Option AsmLine :=
  match mnemonic, operands with
  | "NOP", [] => some .nop
  | "CRC.INIT", [] => some .crcInit
  | "CRC.FEED", [b] => some (.crcFeed b)
  | "FRM.START", [] => some .frmStart
  | "FRM.PUSH", [b] => some (.frmPush b)
  | "ERR.CLR", [] => some .errClr
  | "PAY.WR", [i, b] => some (.payWr i b)
  | ".word", [w] => some (.word w)
  | "CRC.CALC", bs => some (.crcCalc bs)
  | "PAY.LOAD", bs => some (.payLoad bs)
  | "FRM.LOAD", bs => some (.frmLoad bs)
  | _, _ => none

/-- The words of one line of text; a line with nothing before its comment has none (log 12). -/
def assembleLine (cs : List Char) : Option (List CmdWord) :=
  let code := trimBlanks (cs.takeWhile (fun c => c != ';'))
  if code = [] then some []
  else
    let mnemonic := String.ofList (code.takeWhile (fun c => !isBlank c))
    match parseOperands (code.dropWhile (fun c => !isBlank c)) with
    | none => none
    | some operands =>
      match lineOf mnemonic operands with
      | none => none
      | some l => assemble l

/-- The words of a program text, one command a line (R43). If one line is refused, no words are given for the whole text: the
model's choice, since R43 says only which lines an assembler refuses (log 12). -/
def assembleText (text : String) : Option (List CmdWord) :=
  match (splitOnChar '\n' text.toList).mapM assembleLine with
  | none => none
  | some wss => some wss.flatten

end Sys2Proof.Machine
end

