-- ==== Sys2Proof/Machine/Library.lean ====
section
/-! DEFINITION. The four functions of the source's "Checksum & Decode Library", which the block renders (spec 00_scope.md R1, R5),
written from the source's own formulas as the spec quotes them. -/

namespace Sys2Proof.Machine

open Sys2Proof

/-- compute_checksum: the byte update folded over the bytes in order, from 0xFF (R48, R49). -/
def computeChecksum (bs : List Byte) : Byte := bs.foldl crc8Update Config.crcInit

/-- extract_fields' raw_humidity: (byte[1] << 12) | (byte[2] << 4) | (byte[3] >> 4) (R51). -/
def extractHumidity (p : Payload) : RawField :=
  (p.p1.setWidth 20 <<< 12) ||| (p.p2.setWidth 20 <<< 4) ||| (p.p3 >>> 4).setWidth 20

/-- extract_fields' raw_temperature: ((byte[3] & 0x0F) << 16) | (byte[4] << 8) | byte[5] (R52). -/
def extractTemperature (p : Payload) : RawField :=
  ((p.p3 &&& 0x0F#8).setWidth 20 <<< 16) ||| (p.p4.setWidth 20 <<< 8) ||| p.p5.setWidth 20

/-- scale_humidity: raw / 2^20 * 100, as an exact number (R53). -/
def scaleHumidity (r : RawField) : Rat := (r.toNat : Rat) / 2 ^ 20 * 100

/-- scale_temperature: raw / 2^20 * 200 - 50, as an exact number (R54). -/
def scaleTemperature (r : RawField) : Rat := (r.toNat : Rat) / 2 ^ 20 * 200 - 50

end Sys2Proof.Machine
end

