-- ==== Sys2Proof/Machine/Outputs.lean ====
section
/-! DEFINITION. The outputs, functions of the state alone (spec 10_state.md R21): the unpacker and its scaling (41_unpack.md R51 to
R55), and what the host reads from them (42_frame.md R62, R63). -/

namespace Sys2Proof.Machine

open Sys2Proof

/-- raw_h = (P[1], P[2], P[3][7:4]), the most significant first (R51, R27). -/
def rawH (p : Payload) : RawField := p.p1 ++ p.p2 ++ p.p3.extractLsb' 4 4

/-- raw_t = (P[3][3:0], P[4], P[5]), the most significant first (R52, R27). -/
def rawT (p : Payload) : RawField := p.p3.extractLsb' 0 4 ++ p.p4 ++ p.p5

/-- hum_fx = raw_h * 25, exact in 25 bits (R53). -/
def humFxOf (r : RawField) : HumFx := BitVec.ofNat 25 (r.toNat * Config.scaleFactor)

/-- temp_fx = (raw_t * 25 - 6553600) mod 2^26 (R54). -/
def tempFxOf (r : RawField) : TempFx := BitVec.ofInt 26 ((r.toNat : Int) * Config.scaleFactor - Config.tempOffset)

/-- The outputs of R21. One-bit outputs are Bools. -/
structure Outputs where
  crc : Byte
  pay0 : Byte
  pay1 : Byte
  pay2 : Byte
  pay3 : Byte
  pay4 : Byte
  pay5 : Byte
  chk : Byte
  idx : BitVec 3
  active : Bool
  done : Bool
  matchOut : Bool
  mismatch : Bool
  err : Bool
  ecause : BitVec 2
  rawH : RawField
  rawT : RawField
  humFx : HumFx
  tempFx : TempFx
  deriving DecidableEq, Repr

/-- out(s) (R10, R21). -/
def State.out (s : State) : Outputs where
  crc := s.crc
  pay0 := s.payload.read 0
  pay1 := s.payload.read 1
  pay2 := s.payload.read 2
  pay3 := s.payload.read 3
  pay4 := s.payload.read 4
  pay5 := s.payload.read 5
  chk := s.chk
  idx := s.idx
  active := s.fst = .active
  done := s.fst = .done
  matchOut := s.matched
  mismatch := s.fst = .done && !s.matched
  err := s.err
  ecause := s.ecause.code
  rawH := Machine.rawH s.payload
  rawT := Machine.rawT s.payload
  humFx := humFxOf (Machine.rawH s.payload)
  tempFx := tempFxOf (Machine.rawT s.payload)

/-- value(hum_fx) in percent (R53). -/
def humPercent (h : HumFx) : Rat := (h.toNat : Rat) / (2 ^ Config.humFractionBits : Nat)

/-- value(temp_fx) in degrees Celsius, the 26 bits read as two's complement (R54). -/
def tempCelsius (t : TempFx) : Rat := (t.toInt : Rat) / (2 ^ Config.tempFractionBits : Nat)

/-- What the host may conclude from the outputs (R62, R63). -/
inductive FrameOutcome where
  /-- No frame has been validated: neither `match` nor `mismatch`. -/
  | pending
  /-- match = 1: the outputs are a Reading. -/
  | reading (humidity temperature : Rat)
  /-- mismatch = 1: the source's checksum-mismatch condition. -/
  | checksumMismatch
  deriving DecidableEq, Repr

/-- The outcome of take_reading, read from the outputs; using them only so is the host's duty (R63, R86). -/
def takeReading (o : Outputs) : FrameOutcome :=
  if o.matchOut then .reading (humPercent o.humFx) (tempCelsius o.tempFx)
  else if o.mismatch then .checksumMismatch
  else .pending

/-- read_raw: the payload bytes undecoded, while match = 1 (R63). -/
def readRaw (o : Outputs) : Option (List Byte) :=
  if o.matchOut then some [o.pay0, o.pay1, o.pay2, o.pay3, o.pay4, o.pay5] else none

/-- The Reading as a floating-point build would round it: the rounding is an argument, since the source names no float
format (I7, log 10). -/
def takeReadingRounded (round : Rat → Rat) (o : Outputs) : FrameOutcome :=
  match takeReading o with
  | .pending => .pending
  | .reading h t => .reading (round h) (round t)
  | .checksumMismatch => .checksumMismatch

end Sys2Proof.Machine
end

