-- ==== Sys2Proof/Safety.lean ====
section
/-! DEFINITION. The terms the claims use: the invariants of spec 10_state.md R25 and 42_frame.md R60 and R62, runs over a finite sequence of
edges (70_reset_and_hazards.md R89), what an edge carries, the bytes of the last frame, and the table V-T of 95_test_vectors.md. -/

namespace Sys2Proof.Safety

open Sys2Proof Sys2Proof.Machine

/-- The invariants of every state reached from reset (R25). -/
structure Inv (s : State) : Prop where
  /-- FST is never 11. -/
  fst_code : s.fst.code ≠ 0b11#2
  idle_idx : s.fst = .idle → s.idx = 0#3
  active_idx : s.fst = .active → s.idx.toNat ≤ 6
  done_idx : s.fst = .done → s.idx = 7#3
  matched_done : s.matched = true → s.fst = .done
  err_ecause : s.err = false ↔ s.ecause.code = 0b00#2

/-- What the registers say of the frame (R60, R62): in ACTIVE, CRC is the checksum of the bytes received so far; in DONE, MATCH says
whether CHK is the checksum of the payload. -/
structure FrameInv (s : State) : Prop where
  active_crc : s.fst = .active → s.crc = computeChecksum (s.payload.bytes.take s.idx.toNat)
  done_matched : s.fst = .done → (s.matched = true ↔ s.chk = computeChecksum s.payload.bytes)

/-- The outcome of the run over the edges `es` from `s`: one step an edge (R87, R89). -/
def runEdges (es : List Edge) (s : State) : Host.Outcome State Fault Refusal :=
  Sys2Proof.core.run es.length { s with edges := es }

/-- An edge with `rst = 1`. -/
def resetEdge : Edge := { rst := true, cmdValid := false, cmd := 0x0000#16 }

/-- The edge accepts this command (R13): no reset, a valid word, and the word decodes to it. -/
def Accepts (e : Edge) (i : Instr) : Prop :=
  e.rst = false ∧ e.cmdValid = true ∧ decode e.cmd = .command i

/-- The edge presents a reserved OP (R40). -/
def PresentsReserved (e : Edge) : Prop :=
  e.rst = false ∧ e.cmdValid = true ∧ ∃ op, decode e.cmd = .reserved op

/-- The command an edge accepts, if any: none at a reset edge, at an edge with `cmd_valid = 0` and for a reserved OP. -/
def acceptedCommand (e : Edge) : Option Instr :=
  if e.rst then none
  else if e.cmdValid then
    match decode e.cmd with
    | .command i => some i
    | .reserved _ => none
  else none

/-- An edge that changes nothing: `cmd_valid = 0`, or NOP (R48's cycles and commands between the steps). -/
def isQuiet (e : Edge) : Bool :=
  !e.rst && (!e.cmdValid || decode e.cmd == .command .nop)

/-- The byte an edge pushes, if it carries FRM.PUSH. -/
def pushedByte (e : Edge) : Option Byte :=
  match acceptedCommand e with
  | some (.frmPush b) => some b
  | _ => none

/-- The bytes of the frame begun last, after one more edge: FRM.START and reset begin anew, and FRM.PUSH adds its byte while the
frame has fewer than seven (R57, R61). -/
def trackFrame (frame : List Byte) (e : Edge) : List Byte :=
  if e.rst then []
  else match acceptedCommand e with
    | some .frmStart => []
    | some (.frmPush b) => if frame.length < Config.frameLength then frame ++ [b] else frame
    | _ => frame

/-- The bytes pushed in the last frame of a sequence of edges, read from the edges alone. -/
def lastFrame (es : List Edge) : List Byte := es.foldl trackFrame []

/-- The registers hold the tracked frame: in ACTIVE the bytes received so far stand in P[0] up to P[IDX - 1], in DONE all seven stand in
P[0..5] and CHK (R18, R59, R62). -/
structure HoldsFrame (frame : List Byte) (s : State) : Prop where
  active_bytes : s.fst = .active → frame.length = s.idx.toNat ∧ s.payload.bytes.take s.idx.toNat = frame
  done_bytes : s.fst = .done → frame = s.payload.bytes ++ [s.chk]

/-- PAY.WR k, b as a command. -/
def payWrCommand (k : Fin 6) (b : Byte) : Instr :=
  match k with
  | 0 => .payWr0 b
  | 1 => .payWr1 b
  | 2 => .payWr2 b
  | 3 => .payWr3 b
  | 4 => .payWr4 b
  | 5 => .payWr5 b

/-- The commands an active frame turns away with FRAME_CONFLICT (R72). -/
def conflictsWithFrame : Instr → Bool
  | .nop => false
  | .crcInit => true
  | .crcFeed _ => true
  | .frmStart => false
  | .frmPush _ => false
  | .errClr => false
  | .payWr0 _ => true
  | .payWr1 _ => true
  | .payWr2 _ => true
  | .payWr3 _ => true
  | .payWr4 _ => true
  | .payWr5 _ => true

/-- The table V-T of 95_test_vectors.md, T[x] = crc8_update(0x00, x), a row for each high nibble of x. -/
def updateTable : List Byte :=
  [0x00, 0x31, 0x62, 0x53, 0xC4, 0xF5, 0xA6, 0x97, 0xB9, 0x88, 0xDB, 0xEA, 0x7D, 0x4C, 0x1F, 0x2E] ++
  [0x43, 0x72, 0x21, 0x10, 0x87, 0xB6, 0xE5, 0xD4, 0xFA, 0xCB, 0x98, 0xA9, 0x3E, 0x0F, 0x5C, 0x6D] ++
  [0x86, 0xB7, 0xE4, 0xD5, 0x42, 0x73, 0x20, 0x11, 0x3F, 0x0E, 0x5D, 0x6C, 0xFB, 0xCA, 0x99, 0xA8] ++
  [0xC5, 0xF4, 0xA7, 0x96, 0x01, 0x30, 0x63, 0x52, 0x7C, 0x4D, 0x1E, 0x2F, 0xB8, 0x89, 0xDA, 0xEB] ++
  [0x3D, 0x0C, 0x5F, 0x6E, 0xF9, 0xC8, 0x9B, 0xAA, 0x84, 0xB5, 0xE6, 0xD7, 0x40, 0x71, 0x22, 0x13] ++
  [0x7E, 0x4F, 0x1C, 0x2D, 0xBA, 0x8B, 0xD8, 0xE9, 0xC7, 0xF6, 0xA5, 0x94, 0x03, 0x32, 0x61, 0x50] ++
  [0xBB, 0x8A, 0xD9, 0xE8, 0x7F, 0x4E, 0x1D, 0x2C, 0x02, 0x33, 0x60, 0x51, 0xC6, 0xF7, 0xA4, 0x95] ++
  [0xF8, 0xC9, 0x9A, 0xAB, 0x3C, 0x0D, 0x5E, 0x6F, 0x41, 0x70, 0x23, 0x12, 0x85, 0xB4, 0xE7, 0xD6] ++
  [0x7A, 0x4B, 0x18, 0x29, 0xBE, 0x8F, 0xDC, 0xED, 0xC3, 0xF2, 0xA1, 0x90, 0x07, 0x36, 0x65, 0x54] ++
  [0x39, 0x08, 0x5B, 0x6A, 0xFD, 0xCC, 0x9F, 0xAE, 0x80, 0xB1, 0xE2, 0xD3, 0x44, 0x75, 0x26, 0x17] ++
  [0xFC, 0xCD, 0x9E, 0xAF, 0x38, 0x09, 0x5A, 0x6B, 0x45, 0x74, 0x27, 0x16, 0x81, 0xB0, 0xE3, 0xD2] ++
  [0xBF, 0x8E, 0xDD, 0xEC, 0x7B, 0x4A, 0x19, 0x28, 0x06, 0x37, 0x64, 0x55, 0xC2, 0xF3, 0xA0, 0x91] ++
  [0x47, 0x76, 0x25, 0x14, 0x83, 0xB2, 0xE1, 0xD0, 0xFE, 0xCF, 0x9C, 0xAD, 0x3A, 0x0B, 0x58, 0x69] ++
  [0x04, 0x35, 0x66, 0x57, 0xC0, 0xF1, 0xA2, 0x93, 0xBD, 0x8C, 0xDF, 0xEE, 0x79, 0x48, 0x1B, 0x2A] ++
  [0xC1, 0xF0, 0xA3, 0x92, 0x05, 0x34, 0x67, 0x56, 0x78, 0x49, 0x1A, 0x2B, 0xBC, 0x8D, 0xDE, 0xEF] ++
  [0x82, 0xB3, 0xE0, 0xD1, 0x46, 0x77, 0x24, 0x15, 0x3B, 0x0A, 0x59, 0x68, 0xFF, 0xCE, 0x9D, 0xAC]

end Sys2Proof.Safety
end

