-- ==== Sys2Proof/Certificates/Slice0/Obligations.lean ====
section
/-! DEFINITION. The statements for the provers, rule by rule of spec/. A statement that says `exec i s = .next t` with t written out
is the completion statement of i, and its frame: every register that t does not name is the one of s. -/

open Sys2Proof Sys2Proof.Machine Sys2Proof.Safety

/-! ### Encoding and assembler -/

/-- Every command is well formed, decodes from its own word, and the words that decode to it are exactly those that agree with
that word on the significant bits (R36, R37, R39, R41). -/
def Obligations.DecodeInvertsEncode : Prop :=
  ∀ i : Instr, i.wellFormed = true ∧ decode (encode i) = .command i ∧
    ∀ w : CmdWord, decode w = .command i ↔ w &&& i.significantBits = encode i

/-- R39: a word is a row's command when `w &&& mask = pattern`, its operand is DATA, and a word that matches no row is
RESERVED(OP). -/
def Obligations.DecoderFollowsOpcodeTable : Prop :=
  ∀ w : CmdWord,
    (∀ r ∈ opcodeTable, w &&& r.mask = r.pattern ↔ ∃ i, decode w = .command i ∧ i.mnemonic = r.mnemonic) ∧
    (∀ i b, decode w = .command i → i.operandOf = some b → b = dataOf w) ∧
    ((∀ r ∈ opcodeTable, w &&& r.mask ≠ r.pattern) → decode w = .reserved (opOf w))

/-- R40, R70: the 244 reserved OP values, whatever DATA, raise ILLEGAL_CMD in every state and change nothing else. -/
def Obligations.ReservedOpcodesRaiseIllegalCmd : Prop :=
  (∀ op d : Byte, decode (wordOf op d) = .reserved op ↔
    (op = 0x06#8 ∨ op = 0x07#8 ∨ op = 0x0E#8 ∨ op = 0x0F#8 ∨ 0x10 ≤ op.toNat)) ∧
  ((List.range 256).filter (fun n => decode (wordOf (BitVec.ofNat 8 n) 0x00#8) == .reserved (BitVec.ofNat 8 n))).length = 244 ∧
  (∀ (op d : Byte) (s : State), decode (wordOf op d) = .reserved op →
    execWord (wordOf op d) s =
      .next { s with err := true, ecause := if s.err then s.ecause else .illegalCmd })

/-- One word of each of the 12 rows, written out from the encoding table of R39 and the vectors of 95_test_vectors.md, and the reserved
neighbour of PAY.WR (V-U15). -/
def Obligations.WrittenWordsDecode : Prop :=
  decode 0b0000000000000000#16 = .command .nop ∧
  decode 0b0000000110100101#16 = .command .crcInit ∧
  decode 0b0000001001000010#16 = .command (.crcFeed 0x42#8) ∧
  decode 0b0000001100000000#16 = .command .frmStart ∧
  decode 0b0000010000011100#16 = .command (.frmPush 0x1C#8) ∧
  decode 0b0000010100000000#16 = .command .errClr ∧
  decode 0b0000100001010101#16 = .command (.payWr0 0x55#8) ∧
  decode 0b0000100101101011#16 = .command (.payWr1 0x6B#8) ∧
  decode 0b0000101000101110#16 = .command (.payWr2 0x2E#8) ∧
  decode 0b0000101100000110#16 = .command (.payWr3 0x06#8) ∧
  decode 0b0000110011000001#16 = .command (.payWr4 0xC1#8) ∧
  decode 0b0000110100111111#16 = .command (.payWr5 0x3F#8) ∧
  decode 0b0000111001010101#16 = .reserved 0x0E#8

/-- R37, R41: whether a word is a command depends on OP alone, the commands that read DATA take it as is, and the others (and
reserved OPs) ignore it. -/
def Obligations.DataReadAsIsOrIgnored : Prop :=
  (∀ op d d' : Byte, (∃ i, decode (wordOf op d) = .command i) ↔ ∃ i, decode (wordOf op d') = .command i) ∧
  (∀ d : Byte, decode (wordOf 0x02#8 d) = .command (.crcFeed d) ∧ decode (wordOf 0x04#8 d) = .command (.frmPush d) ∧
    ∀ k : Fin 6, decode (wordOf (BitVec.ofNat 8 (0x08 + k.val)) d) = .command (payWrCommand k d)) ∧
  (∀ (op d d' : Byte) (s : State),
    (op = 0x00#8 ∨ op = 0x01#8 ∨ op = 0x03#8 ∨ op = 0x05#8 ∨ decode (wordOf op d) = .reserved op) →
      execWord (wordOf op d) s = execWord (wordOf op d') s) ∧
  decode 0x01A5#16 = .command .crcInit ∧ decode 0x0100#16 = .command .crcInit

/-- The word of each assembler line as the table of R43 writes it, and the refusal of a `b` outside 0..255 and an `i` outside 0..5; that
a `.word` operand above 65535 is refused too is the model's choice (log 12). -/
def Obligations.AssemblerWordsOfLines : Prop :=
  assemble .nop = some [0x0000#16] ∧ assemble .crcInit = some [0x0100#16] ∧
  assemble .frmStart = some [0x0300#16] ∧ assemble .errClr = some [0x0500#16] ∧
  ∀ b : Nat,
    assemble (.crcFeed b) = (if b ≤ 255 then some [BitVec.ofNat 16 (0x0200 ||| b)] else none) ∧
    assemble (.frmPush b) = (if b ≤ 255 then some [BitVec.ofNat 16 (0x0400 ||| b)] else none) ∧
    assemble (.word b) = (if b ≤ 65535 then some [BitVec.ofNat 16 b] else none) ∧
    ∀ i : Nat, assemble (.payWr i b) =
      (if i ≤ 5 ∧ b ≤ 255 then some [BitVec.ofNat 16 (((0x08 + i) <<< 8) ||| b)] else none)

/-- R44: the pseudo-instructions expand line by line; FRM.LOAD takes exactly seven bytes; CRC.CALC of nothing is CRC.INIT alone
and leaves CRC = 0xFF. -/
def Obligations.PseudoInstructionExpansions : Prop :=
  (∀ bs : List Nat, assemble (.crcCalc bs) = ((AsmLine.crcInit :: bs.map .crcFeed).mapM assemble).map List.flatten) ∧
  (∀ b0 b1 b2 b3 b4 b5 : Nat, assemble (.payLoad [b0, b1, b2, b3, b4, b5]) =
    ([AsmLine.payWr 0 b0, .payWr 1 b1, .payWr 2 b2, .payWr 3 b3, .payWr 4 b4, .payWr 5 b5].mapM assemble).map List.flatten) ∧
  (∀ bs : List Nat, assemble (.frmLoad bs) =
    if bs.length = 7 then ((AsmLine.frmStart :: bs.map .frmPush).mapM assemble).map List.flatten else none) ∧
  assemble (.crcCalc []) = some [0x0100#16] ∧
  (∀ s : State, s.fst ≠ .active → runEdges (edgesOf [0x0100#16]) s = .next { s with crc := 0xFF#8, edges := [] })

/-! ### Steps, edges and reset -/

/-- The edges stand in `edges`, the model's own field (log 1), and with none left a step changes nothing, which the model infers
(log 2). Then R13, R42 and R80 at the oldest edge: with `rst = 0` and `cmd_valid = 0` nothing changes whatever `cmd` holds; with
`cmd_valid = 1` exactly the command the word decodes to executes, a reserved OP taking its error action; with `rst = 1` the reset
state. -/
def Obligations.StepIsOneClockEdge : Prop :=
  (∀ s : State, s.edges = [] → step s = .next s) ∧
  ∀ (s : State) (e : Edge) (rest : List Edge), s.edges = e :: rest →
    (e.rst = true → step s = .next { State.reset with edges := rest }) ∧
    (e.rst = false → e.cmdValid = false → step s = .next { s with edges := rest }) ∧
    (∀ i, e.rst = false → e.cmdValid = true → decode e.cmd = .command i → step s = exec i { s with edges := rest }) ∧
    (∀ op, e.rst = false → e.cmdValid = true → decode e.cmd = .reserved op →
      step s = .next { s with edges := rest, err := true, ecause := if s.err then s.ecause else .illegalCmd })

/-- The host's interface: a word placed by `withFetchWord` runs at the very next step, as the instruction `decodeTableWord` reads,
and the edges already supplied stay (the model's own interface: log 3, log 11). -/
def Obligations.PlacedWordRunsNext : Prop :=
  ∀ (s : State) (nbits w : Nat) (i : Instr), decodeTableWord nbits w = some i →
    step (s.withFetchWord nbits w) = exec i s

/-- R80, R81: an edge with `rst = 1` gives every register its reset value, whatever the state was and whatever command stands on
`cmd`; several such edges keep it; the outputs are then those of V-R1. -/
def Obligations.ResetEdgeGivesResetState : Prop :=
  (∀ (s : State) (e : Edge) (rest : List Edge), s.edges = e :: rest → e.rst = true →
    step s = .next { crc := 0xFF#8, payload := ⟨0x00#8, 0x00#8, 0x00#8, 0x00#8, 0x00#8, 0x00#8⟩, chk := 0x00#8, fst := .idle,
                     idx := 0#3, matched := false, err := false, ecause := .none, edges := rest }) ∧
  (∀ (s : State) (es : List Edge), es ≠ [] → (∀ e ∈ es, e.rst = true) → runEdges es s = .next State.reset) ∧
  State.reset.out = { crc := 0xFF#8, pay0 := 0x00#8, pay1 := 0x00#8, pay2 := 0x00#8, pay3 := 0x00#8, pay4 := 0x00#8,
                      pay5 := 0x00#8, chk := 0x00#8, idx := 0#3, active := false, done := false, matchOut := false,
                      mismatch := false, err := false, ecause := 0b00#2, rawH := 0x00000#20, rawT := 0x00000#20,
                      humFx := 0#25, tempFx := 0x39C0000#26 }

/-- The block never stops (R68, R85, R89): from every state, any number of steps answers a next state. Each step takes exactly one edge
(R87) while edges are left; a step past the last edge leaves the state as it is, which is the model's inference (log 2) over its own
field `edges` (log 1). -/
def Obligations.RunsNeverStop : Prop :=
  ∀ (n : Nat) (s : State), ∃ t, Sys2Proof.core.run n s = .next t ∧ t.edges = s.edges.drop n

/-! ### CRC-8 -/

/-- R45: the byte update is the source's eight-iteration loop; it depends on r ^ d only, is the table V-T, and is linear. -/
def Obligations.CrcUpdateMatchesSource : Prop :=
  (∀ r d : Byte, crc8Update r d =
    (fun v : Byte => if v.getLsbD 7 = true then ((v <<< 1) &&& 0xFF#8) ^^^ 0x31#8 else (v <<< 1) &&& 0xFF#8)^[8] (r ^^^ d)) ∧
  (∀ r d : Byte, crc8Update r d = crc8Update 0x00#8 (r ^^^ d)) ∧
  (∀ x : Byte, updateTable[x.toNat]? = some (crc8Update 0x00#8 x)) ∧
  (∀ a b : Byte, crc8Update 0x00#8 (a ^^^ b) = crc8Update 0x00#8 a ^^^ crc8Update 0x00#8 b) ∧
  crc8Update 0x00#8 0x00#8 = 0x00#8 ∧
  computeChecksum [0x31#8, 0x32#8, 0x33#8, 0x34#8, 0x35#8, 0x36#8, 0x37#8, 0x38#8, 0x39#8] = 0xF7#8

/-- R46: CRC.INIT, OP 0x01: CRC becomes 0xFF and nothing else changes; in ACTIVE it raises FRAME_CONFLICT and does nothing else. -/
def Obligations.CrcInitResult : Prop :=
  ∀ s : State,
    (∀ d : Byte, decode (wordOf 0x01#8 d) = .command .crcInit) ∧
    (s.fst ≠ .active → exec .crcInit s = .next { s with crc := 0xFF#8 }) ∧
    (s.fst = .active → exec .crcInit s =
      .next { s with err := true, ecause := if s.err then s.ecause else .frameConflict })

/-- R47: CRC.FEED b, OP 0x02: CRC becomes the byte update of CRC and b and nothing else changes; in ACTIVE it raises FRAME_CONFLICT
and does nothing else; the corner cases and the example of the rule. -/
def Obligations.CrcFeedResult : Prop :=
  (∀ (s : State) (b : Byte),
    decode (wordOf 0x02#8 b) = .command (.crcFeed b) ∧
    (s.fst ≠ .active → exec (.crcFeed b) s = .next { s with crc := crc8Update s.crc b }) ∧
    (s.fst = .active → exec (.crcFeed b) s =
      .next { s with err := true, ecause := if s.err then s.ecause else .frameConflict })) ∧
  (∀ r : Byte, crc8Update r r = 0x00#8) ∧
  crc8Update 0xFF#8 0x00#8 = 0xAC#8 ∧ crc8Update 0x00#8 0xFF#8 = 0xAC#8 ∧ crc8Update 0xFF#8 0x42#8 = 0xF3#8

/-- R48: CRC.INIT and then CRC.FEED of each byte, from any state with no active frame and with any number of NOPs and of edges
with `cmd_valid = 0` between, leaves in CRC the byte update folded over the bytes from 0xFF, and changes nothing else. -/
def Obligations.ChecksumByCommandSequence : Prop :=
  ∀ (s : State) (es : List Edge) (bs : List Byte), s.fst ≠ .active →
    (es.filter (fun e => !isQuiet e)).map acceptedCommand = some .crcInit :: bs.map (fun b => some (.crcFeed b)) →
    runEdges es s = .next { s with crc := bs.foldl crc8Update 0xFF#8, edges := [] } ∧
    computeChecksum bs = bs.foldl crc8Update 0xFF#8

/-- The source's worked values of compute_checksum (R49, V-S1 to V-S4), and that the order of the bytes matters. -/
def Obligations.ChecksumWorkedValues : Prop :=
  computeChecksum [] = 0xFF#8 ∧ computeChecksum [0xBE#8, 0xEF#8, 0x42#8] = 0x04#8 ∧ computeChecksum [0x42#8] = 0xF3#8 ∧
  computeChecksum [0x12#8, 0x34#8, 0x56#8] = 0x8A#8 ∧ computeChecksum [0x12#8, 0x32#8, 0x57#8] = 0xE1#8 ∧
  computeChecksum [0x12#8, 0x34#8] ≠ computeChecksum [0x34#8, 0x12#8]

/-- A change of one byte of an input of any length changes the checksum, so in particular any single-bit change does (R49); the
one-byte claim follows from the byte update of R45. Some two inputs of one length collide. -/
def Obligations.ChecksumSeesOneByteChange : Prop :=
  (∀ (before after : List Byte) (b c : Byte), b ≠ c →
    computeChecksum (before ++ b :: after) ≠ computeChecksum (before ++ c :: after)) ∧
  (∀ (before after : List Byte) (b : Byte) (k : Fin 8),
    computeChecksum (before ++ b :: after) ≠ computeChecksum (before ++ (b ^^^ BitVec.twoPow 8 k.val) :: after)) ∧
  ∃ bs cs : List Byte, bs ≠ cs ∧ bs.length = cs.length ∧ computeChecksum bs = computeChecksum cs

/-- R83: after a reset edge the first checksum may start with CRC.FEED; CRC.INIT first gives the same state. -/
def Obligations.FirstChecksumNeedsNoInit : Prop :=
  ∀ (s : State) (bs : List Byte),
    runEdges (resetEdge :: edgesOf (bs.map (fun b => encode (.crcFeed b)))) s =
      .next { State.reset with crc := computeChecksum bs } ∧
    runEdges (resetEdge :: edgesOf (encode .crcInit :: bs.map (fun b => encode (.crcFeed b)))) s =
      .next { State.reset with crc := computeChecksum bs }

/-! ### Unpacker -/

/-- R50: PAY.WR i, b, OP 0x08 + i: P[i] becomes b, the frame state returns to IDLE with IDX = 0 and MATCH = 0, and nothing else
changes; in ACTIVE it raises FRAME_CONFLICT and does nothing else. -/
def Obligations.PayWrResult : Prop :=
  ∀ (s : State) (b : Byte),
    (s.fst ≠ .active →
      exec (.payWr0 b) s = .next { s with payload := { s.payload with p0 := b }, fst := .idle, idx := 0#3, matched := false } ∧
      exec (.payWr1 b) s = .next { s with payload := { s.payload with p1 := b }, fst := .idle, idx := 0#3, matched := false } ∧
      exec (.payWr2 b) s = .next { s with payload := { s.payload with p2 := b }, fst := .idle, idx := 0#3, matched := false } ∧
      exec (.payWr3 b) s = .next { s with payload := { s.payload with p3 := b }, fst := .idle, idx := 0#3, matched := false } ∧
      exec (.payWr4 b) s = .next { s with payload := { s.payload with p4 := b }, fst := .idle, idx := 0#3, matched := false } ∧
      exec (.payWr5 b) s = .next { s with payload := { s.payload with p5 := b }, fst := .idle, idx := 0#3, matched := false }) ∧
    (s.fst = .active → ∀ k : Fin 6, exec (payWrCommand k b) s =
      .next { s with err := true, ecause := if s.err then s.ecause else .frameConflict }) ∧
    (∀ k : Fin 6, decode (wordOf (BitVec.ofNat 8 (0x08 + k.val)) b) = .command (payWrCommand k b)) ∧
    decode (wordOf 0x0E#8 b) = .reserved 0x0E#8 ∧ decode (wordOf 0x0F#8 b) = .reserved 0x0F#8

/-- R51, R52: raw_h and raw_t are the source's formulas over bytes 1 to 5, as numbers and as bit operations, and every pair of values
is reached from reset by PAY.LOAD. -/
def Obligations.RawFieldsFollowSource : Prop :=
  (∀ s : State,
    s.out.rawH.toNat = s.payload.p1.toNat * 4096 + s.payload.p2.toNat * 16 + s.payload.p3.toNat / 16 ∧
    s.out.rawT.toNat = s.payload.p3.toNat % 16 * 65536 + s.payload.p4.toNat * 256 + s.payload.p5.toNat ∧
    s.out.rawH = extractHumidity s.payload ∧ s.out.rawT = extractTemperature s.payload) ∧
  (∀ h t : RawField, ∃ (bs : List Nat) (ws : List CmdWord) (u : State),
    assemble (.payLoad bs) = some ws ∧ runEdges (edgesOf ws) State.reset = .next u ∧ u.out.rawH = h ∧ u.out.rawT = t)

/-- R27: which bits of the fields each payload byte holds. -/
def Obligations.PayloadPacking : Prop :=
  ∀ p : Payload,
    p.p1 = (rawH p).extractLsb' 12 8 ∧ p.p2 = (rawH p).extractLsb' 4 8 ∧ p.p3.extractLsb' 4 4 = (rawH p).extractLsb' 0 4 ∧
    p.p3.extractLsb' 0 4 = (rawT p).extractLsb' 16 4 ∧ p.p4 = (rawT p).extractLsb' 8 8 ∧ p.p5 = (rawT p).extractLsb' 0 8

/-- R53: hum_fx is raw_h * 25 exactly, its value is the source's raw / 2^20 * 100, and it stays below 100 percent. -/
def Obligations.HumidityScalingExact : Prop :=
  (∀ s : State, (s.out.humFx.toNat = s.out.rawH.toNat * 25) ∧ s.out.humFx.toNat ≤ 26214375 ∧
    humPercent s.out.humFx = (s.out.rawH.toNat : Rat) / 2 ^ 20 * 100 ∧
    0 ≤ humPercent s.out.humFx ∧ humPercent s.out.humFx < 100) ∧
  humFxOf 0x00000#20 = 0#25 ∧ (humFxOf 0xFFFFF#20).toNat = 26214375 ∧
  humFxOf 0x80000#20 = 0xC80000#25 ∧ humPercent (humFxOf 0x80000#20) = 50

/-- R54: temp_fx is raw_t * 25 - 6553600 exactly in 26-bit two's complement, its value is the source's raw / 2^20 * 200 - 50 with no
clamping, and it is negative exactly below raw_t = 0x40000. -/
def Obligations.TemperatureScalingExact : Prop :=
  (∀ s : State, s.out.tempFx.toInt = (s.out.rawT.toNat : Int) * 25 - 6553600 ∧
    -6553600 ≤ s.out.tempFx.toInt ∧ s.out.tempFx.toInt ≤ 19660775 ∧
    tempCelsius s.out.tempFx = (s.out.rawT.toNat : Rat) / 2 ^ 20 * 200 - 50 ∧
    (s.out.tempFx.toInt < 0 ↔ s.out.rawT.toNat < 0x40000)) ∧
  tempFxOf 0x00000#20 = 0x39C0000#26 ∧ tempFxOf 0xFFFFF#20 = 0x12BFFE7#26 ∧ tempFxOf 0x40000#20 = 0#26 ∧
  tempFxOf 0x60000#20 = 0x320000#26 ∧ tempCelsius (tempFxOf 0x60000#20) = 25

/-- The scaling is lossless: the raw fields are recovered from the scaled outputs by R56's formulas. -/
def Obligations.ScalingLossless : Prop :=
  ∀ s : State, s.out.rawH.toNat = s.out.humFx.toNat / 25 ∧
    (s.out.rawT.toNat : Int) = (s.out.tempFx.toInt + 6553600) / 25

/-- Two states that agree on P[1] to P[5] show the same unpacker outputs, so P[0], CHK and every other register never reach them; raw_h
ignores P[3]'s low nibble and raw_t its high one (R51, R52, R56). -/
def Obligations.UnpackerReadsBytesOneToFive : Prop :=
  ∀ s t : State, s.payload.p4 = t.payload.p4 → s.payload.p5 = t.payload.p5 → s.payload.p1 = t.payload.p1 →
    s.payload.p2 = t.payload.p2 →
    (s.payload.p3.extractLsb' 4 4 = t.payload.p3.extractLsb' 4 4 → s.out.rawH = t.out.rawH ∧ s.out.humFx = t.out.humFx) ∧
    (s.payload.p3.extractLsb' 0 4 = t.payload.p3.extractLsb' 0 4 → s.out.rawT = t.out.rawT ∧ s.out.tempFx = t.out.tempFx)

/-- R56: PAY.LOAD from any state without an active frame and FRM.LOAD from any state, over the same six bytes, end with the same payload,
whose outputs are the source's extract_fields and represent its scale functions exactly. -/
def Obligations.DirectAndFramePathsAgree : Prop :=
  ∀ (s s' : State) (b0 b1 b2 b3 b4 b5 c : Byte), s.fst ≠ .active →
    ∃ t t' : State,
      runEdges (edgesOf [encode (.payWr0 b0), encode (.payWr1 b1), encode (.payWr2 b2), encode (.payWr3 b3),
        encode (.payWr4 b4), encode (.payWr5 b5)]) s = .next t ∧
      runEdges (edgesOf [encode .frmStart, encode (.frmPush b0), encode (.frmPush b1), encode (.frmPush b2),
        encode (.frmPush b3), encode (.frmPush b4), encode (.frmPush b5), encode (.frmPush c)]) s' = .next t' ∧
      t.payload = ⟨b0, b1, b2, b3, b4, b5⟩ ∧ t'.payload = ⟨b0, b1, b2, b3, b4, b5⟩ ∧
      t.out.rawH = t'.out.rawH ∧ t.out.rawT = t'.out.rawT ∧ t.out.humFx = t'.out.humFx ∧ t.out.tempFx = t'.out.tempFx ∧
      t.out.rawH = extractHumidity ⟨b0, b1, b2, b3, b4, b5⟩ ∧ t.out.rawT = extractTemperature ⟨b0, b1, b2, b3, b4, b5⟩ ∧
      humPercent t.out.humFx = scaleHumidity t.out.rawH ∧ tempCelsius t.out.tempFx = scaleTemperature t.out.rawT

/-! ### Frame receiver -/

/-- R58: FRM.START, OP 0x03, in every state: CRC = 0xFF, IDX = 0, ACTIVE, MATCH = 0, and nothing else changes. -/
def Obligations.FrmStartResult : Prop :=
  ∀ s : State, (∀ d : Byte, decode (wordOf 0x03#8 d) = .command .frmStart) ∧
    exec .frmStart s = .next { s with crc := 0xFF#8, idx := 0#3, fst := .active, matched := false }

/-- R59, R61: FRM.PUSH b, OP 0x04: in ACTIVE with IDX ≤ 5 it writes P[IDX], updates CRC and counts; with IDX = 6 it latches CHK and the
comparison with CRC as it was, and the frame is DONE with IDX = 7; outside ACTIVE it raises FRAME_SEQ. Nothing else changes. -/
def Obligations.FrmPushResult : Prop :=
  ∀ (s : State) (b : Byte),
    decode (wordOf 0x04#8 b) = .command (.frmPush b) ∧
    (∀ k : Fin 6, s.fst = .active → s.idx.toNat = k.val →
      ∃ p : Payload, exec (.frmPush b) s = .next { s with payload := p, crc := crc8Update s.crc b, idx := s.idx + 1#3 } ∧
        ∀ j : Fin 6, p.read j = if j = k then b else s.payload.read j) ∧
    (s.fst = .active → s.idx = 6#3 →
      exec (.frmPush b) s = .next { s with chk := b, matched := decide (s.crc = b), fst := .done, idx := 7#3 }) ∧
    (s.fst ≠ .active → exec (.frmPush b) s =
      .next { s with err := true, ecause := if s.err then s.ecause else .frameSeq })

/-- FRM.LOAD of six bytes and a checksum byte, from any state: the whole state after it (R58, R59), and the outcome of take_reading
and read_raw (R62, R63, R44). -/
def Obligations.FrmLoadOutcome : Prop :=
  ∀ (s : State) (b0 b1 b2 b3 b4 b5 c : Byte), ∃ t : State,
    runEdges (edgesOf [encode .frmStart, encode (.frmPush b0), encode (.frmPush b1), encode (.frmPush b2),
      encode (.frmPush b3), encode (.frmPush b4), encode (.frmPush b5), encode (.frmPush c)]) s = .next t ∧
    t = { s with crc := computeChecksum [b0, b1, b2, b3, b4, b5], payload := ⟨b0, b1, b2, b3, b4, b5⟩, chk := c, fst := .done,
                 idx := 7#3, matched := decide (computeChecksum [b0, b1, b2, b3, b4, b5] = c), edges := [] } ∧
    takeReading t.out =
      (if computeChecksum [b0, b1, b2, b3, b4, b5] = c then
        .reading (scaleHumidity (extractHumidity ⟨b0, b1, b2, b3, b4, b5⟩))
          (scaleTemperature (extractTemperature ⟨b0, b1, b2, b3, b4, b5⟩))
      else .checksumMismatch) ∧
    readRaw t.out = (if computeChecksum [b0, b1, b2, b3, b4, b5] = c then some [b0, b1, b2, b3, b4, b5] else none)

/-- R62's invariant over whole runs: after any reset edge and any edges, MATCH = 1 only in DONE, and in DONE the registers hold exactly the
seven bytes pushed in the last frame, read from the edges alone, and MATCH says whether the seventh is the checksum of the first
six. So whenever MATCH = 1, P[0..5] are the six bytes pushed in the last frame and CHK is their checksum, the last clause. -/
def Obligations.FinishedFrameIsLastFramePushed : Prop :=
  ∀ (s t : State) (es : List Edge), runEdges (resetEdge :: es) s = .next t →
    (t.matched = true → t.fst = .done) ∧
    (t.fst = .done →
      ∃ (bs : List Byte) (c : Byte), lastFrame es = bs ++ [c] ∧ bs.length = 6 ∧ t.payload.bytes = bs ∧ t.chk = c ∧
        (t.matched = true ↔ c = computeChecksum bs) ∧ (t.out.mismatch = true ↔ c ≠ computeChecksum bs)) ∧
    (t.matched = true →
      lastFrame es = t.payload.bytes ++ [t.chk] ∧ t.chk = computeChecksum t.payload.bytes)

/-- R72: a frame is not disturbed by the commands an active frame turns away, nor by NOP, ERR.CLR, reserved OPs or idle edges: whatever of
these stand between FRM.START and the seventh FRM.PUSH, the frame ends as if they were not there. -/
def Obligations.FrameSurvivesStrayCommands : Prop :=
  ∀ (s : State) (es : List Edge) (bs : List Byte) (c : Byte),
    (∀ e ∈ es, e.rst = false ∧ acceptedCommand e ≠ some .frmStart) →
    es.filterMap pushedByte = bs → bs.length = 6 →
    ∃ t : State, runEdges (Edge.ofWord (encode .frmStart) :: es ++ [Edge.ofWord (encode (.frmPush c))]) s = .next t ∧
      t.crc = computeChecksum bs ∧ t.payload.bytes = bs ∧ t.chk = c ∧ t.fst = .done ∧ t.idx = 7#3 ∧
      (t.matched = true ↔ c = computeChecksum bs)

/-! ### Control commands and errors -/

/-- R64: NOP, every word 0x00xx, changes nothing in any state. -/
def Obligations.NopResult : Prop :=
  ∀ s : State, (∀ d : Byte, decode (wordOf 0x00#8 d) = .command .nop) ∧ exec .nop s = .next s

/-- R65: ERR.CLR, OP 0x05, in every state: ERR = 0 and ECAUSE = 00, nothing else changes; with both clear the state is unchanged; and
the first-cause rule starts over. -/
def Obligations.ErrClrResult : Prop :=
  (∀ s : State, (∀ d : Byte, decode (wordOf 0x05#8 d) = .command .errClr) ∧
    exec .errClr s = .next { s with err := false, ecause := .none } ∧
    (s.err = false → s.ecause = .none → exec .errClr s = .next s)) ∧
  (∀ (s t : State) (c : Cause), exec .errClr s = .next t → (raiseError c t).ecause = c.recorded)

/-- R69: the error action is exactly ERR and ECAUSE, ECAUSE only where ERR was 0, with codes 01, 10 and 11; and a command word that sets
ERR does nothing else. -/
def Obligations.ErrorActionIsWholeEffect : Prop :=
  (∀ (c : Cause) (s : State), raiseError c s =
    { s with err := true, ecause := if s.err = false then c.recorded else s.ecause }) ∧
  Cause.illegalCmd.recorded.code = 0b01#2 ∧ Cause.frameSeq.recorded.code = 0b10#2 ∧
  Cause.frameConflict.recorded.code = 0b11#2 ∧
  (∀ (w : CmdWord) (s t : State), s.err = false → execWord w s = .next t → t.err = true →
    ∃ c : Cause, t = { s with err := true, ecause := c.recorded })

/-- R73, with the causes of R70, R71 and R72: which edge records which cause, from a state without an error; reset and idle edges
record none. -/
def Obligations.CauseDeterminedByCommand : Prop :=
  ∀ (s t : State) (e : Edge) (rest : List Edge), s.edges = e :: rest → s.err = false → s.ecause = .none → step s = .next t →
    (t.ecause = .illegalCmd ↔ PresentsReserved e) ∧
    (t.ecause = .frameSeq ↔ s.fst ≠ .active ∧ ∃ b, Accepts e (.frmPush b)) ∧
    (t.ecause = .frameConflict ↔ s.fst = .active ∧ ∃ i, Accepts e i ∧ conflictsWithFrame i = true) ∧
    (t.err = true ↔ t.ecause ≠ .none)

/-- R74: once ERR is set, no sequence of edges without reset and ERR.CLR changes ERR or ECAUSE. -/
def Obligations.FirstCauseKept : Prop :=
  ∀ (s : State) (es : List Edge), s.err = true →
    (∀ e ∈ es, e.rst = false ∧ acceptedCommand e ≠ some .errClr) →
    ∃ t, runEdges es s = .next t ∧ t.err = true ∧ t.ecause = s.ecause

/-- Every command but CRC.FEED and FRM.PUSH, and every reserved word, leaves the same state executed twice as once; so do CRC.FEED and
FRM.PUSH where they raise an error; and those two really are exceptions (R32). -/
def Obligations.RepeatedCommandChangesNothing : Prop :=
  (∀ (i : Instr) (s t : State), (∀ b, i ≠ .crcFeed b) → (∀ b, i ≠ .frmPush b) → exec i s = .next t → exec i t = .next t) ∧
  (∀ (w : CmdWord) (s t : State), decode w = .reserved (opOf w) → execWord w s = .next t → execWord w t = .next t) ∧
  (∀ (b : Byte) (s t : State), s.fst = .active → exec (.crcFeed b) s = .next t → exec (.crcFeed b) t = .next t) ∧
  (∀ (b : Byte) (s t : State), s.fst ≠ .active → exec (.frmPush b) s = .next t → exec (.frmPush b) t = .next t) ∧
  (∃ (b : Byte) (s t : State), exec (.crcFeed b) s = .next t ∧ exec (.crcFeed b) t ≠ .next t) ∧
  (∃ (b : Byte) (s t : State), exec (.frmPush b) s = .next t ∧ exec (.frmPush b) t ≠ .next t)

/-! ### Who writes and who reads each register -/

/-- Only reset, CRC.INIT, FRM.START, CRC.FEED and FRM.PUSH of bytes 0 to 5 write CRC, each the value its rule says (R14). -/
def Obligations.WritersOfCrc : Prop :=
  ∀ (s t : State) (e : Edge) (rest : List Edge), s.edges = e :: rest → step s = .next t → t.crc ≠ s.crc →
    (e.rst = true ∧ t.crc = 0xFF#8) ∨
    (Accepts e .crcInit ∧ s.fst ≠ .active ∧ t.crc = 0xFF#8) ∨
    (Accepts e .frmStart ∧ t.crc = 0xFF#8) ∨
    (∃ b, Accepts e (.crcFeed b) ∧ s.fst ≠ .active ∧ t.crc = crc8Update s.crc b) ∨
    (∃ b, Accepts e (.frmPush b) ∧ s.fst = .active ∧ s.idx.toNat ≤ 5 ∧ t.crc = crc8Update s.crc b)

/-- CRC is read only by the output and by the comparison: two states that differ in CRC alone differ, after any command, in CRC and (at the
seventh byte of a frame) MATCH alone (R14). -/
def Obligations.CrcReadOnlyByComparison : Prop :=
  ∀ (i : Instr) (s t : State) (v : Byte), exec i s = .next t →
    ∃ t', exec i { s with crc := v } = .next t' ∧ t' = { t with crc := t'.crc, matched := t'.matched } ∧
      (t'.matched ≠ t.matched → (∃ b, i = .frmPush b) ∧ s.fst = .active ∧ 6 ≤ s.idx.toNat)

/-- Only reset, PAY.WR k and FRM.PUSH with IDX = k write P[k], and only reset and the seventh FRM.PUSH write CHK (R15, R16). -/
def Obligations.WritersOfPayloadAndChk : Prop :=
  ∀ (s t : State) (e : Edge) (rest : List Edge), Inv s → s.edges = e :: rest → step s = .next t →
    (∀ k : Fin 6, t.payload.read k ≠ s.payload.read k →
      (e.rst = true ∧ t.payload.read k = 0x00#8) ∨
      (s.fst ≠ .active ∧ Accepts e (payWrCommand k (t.payload.read k))) ∨
      (s.fst = .active ∧ s.idx.toNat = k.val ∧ Accepts e (.frmPush (t.payload.read k)))) ∧
    (t.chk ≠ s.chk →
      (e.rst = true ∧ t.chk = 0x00#8) ∨ (s.fst = .active ∧ s.idx = 6#3 ∧ Accepts e (.frmPush t.chk)))

/-- Which edges change FST, IDX and MATCH, and to what (R17, R18, R19). -/
def Obligations.WritersOfFrameState : Prop :=
  ∀ (s t : State) (e : Edge) (rest : List Edge), Inv s → s.edges = e :: rest → step s = .next t →
    (t.fst ≠ s.fst →
      (t.fst = .active ∧ Accepts e .frmStart) ∨
      (t.fst = .done ∧ s.fst = .active ∧ s.idx = 6#3 ∧ ∃ b, Accepts e (.frmPush b)) ∨
      (t.fst = .idle ∧ (e.rst = true ∨ (s.fst = .done ∧ ∃ k b, Accepts e (payWrCommand k b))))) ∧
    (t.idx ≠ s.idx →
      (t.idx = 0#3 ∧ (e.rst = true ∨ Accepts e .frmStart ∨ (s.fst ≠ .active ∧ ∃ k b, Accepts e (payWrCommand k b)))) ∨
      (t.idx.toNat = s.idx.toNat + 1 ∧ s.fst = .active ∧ ∃ b, Accepts e (.frmPush b))) ∧
    (t.matched ≠ s.matched →
      (t.matched = true ∧ s.fst = .active ∧ s.idx = 6#3 ∧ Accepts e (.frmPush s.crc)) ∨
      (t.matched = false ∧ (e.rst = true ∨ Accepts e .frmStart ∨ (s.fst ≠ .active ∧ ∃ k b, Accepts e (payWrCommand k b)))))

/-- ERR and ECAUSE become non-zero only by an error action and zero only by ERR.CLR and reset (R20). -/
def Obligations.WritersOfErrorFlags : Prop :=
  ∀ (s t : State) (e : Edge) (rest : List Edge), s.edges = e :: rest → step s = .next t →
    (t.err ≠ s.err ∨ t.ecause ≠ s.ecause) →
    (t.err = true ∧ s.err = false ∧ t.ecause ≠ .none ∧
      (PresentsReserved e ∨ (s.fst ≠ .active ∧ ∃ b, Accepts e (.frmPush b)) ∨
        (s.fst = .active ∧ ∃ i, Accepts e i ∧ conflictsWithFrame i = true))) ∨
    (t.err = false ∧ t.ecause = .none ∧ (e.rst = true ∨ Accepts e .errClr))

/-! ### Invariants and outputs -/

/-- The reset state satisfies the invariants of R25 and what the registers say of the frame. -/
def Obligations.ResetSatisfiesInvariants : Prop := Inv State.reset ∧ FrameInv State.reset

/-- R25: every step, from every state that satisfies the invariants, keeps them, and every state reached by any edges after a reset
edge satisfies them. -/
def Obligations.StepKeepsInvariants : Prop :=
  (∀ s t : State, Inv s → step s = .next t → Inv t) ∧
  (∀ (s t : State) (es : List Edge), runEdges (resetEdge :: es) s = .next t → Inv t)

/-- Every step keeps what the registers say of the frame (R60, R62): in ACTIVE, CRC is the checksum of the bytes received; in DONE, MATCH
says whether CHK is the checksum of the payload. -/
def Obligations.StepKeepsFrameMeaning : Prop :=
  ∀ s t : State, Inv s → FrameInv s → step s = .next t → FrameInv t

/-- From any state, and so from every pre-reset state that State can hold (FST = 11 is excluded by its type: log 4), every state after a
reset edge says of the frame what R60 and R62 say, and MATCH = 1 means that CHK is the checksum of P[0..5]. -/
def Obligations.RunsAfterResetAreSound : Prop :=
  ∀ (s t : State) (es : List Edge), runEdges (resetEdge :: es) s = .next t →
    FrameInv t ∧ (t.matched = true → t.chk = computeChecksum t.payload.bytes)

/-- R21: the outputs, one by one. -/
def Obligations.OutputsOfState : Prop :=
  ∀ s : State,
    s.out.crc = s.crc ∧ s.out.pay0 = s.payload.p0 ∧ s.out.pay1 = s.payload.p1 ∧ s.out.pay2 = s.payload.p2 ∧
    s.out.pay3 = s.payload.p3 ∧ s.out.pay4 = s.payload.p4 ∧ s.out.pay5 = s.payload.p5 ∧ s.out.chk = s.chk ∧
    s.out.idx = s.idx ∧ (s.out.active = true ↔ s.fst = .active) ∧ (s.out.done = true ↔ s.fst = .done) ∧
    s.out.matchOut = s.matched ∧ (s.out.mismatch = true ↔ s.fst = .done ∧ s.matched = false) ∧ s.out.err = s.err ∧
    s.out.ecause = s.ecause.code ∧ s.out.rawH = rawH s.payload ∧ s.out.rawT = rawT s.payload ∧
    s.out.humFx = humFxOf (rawH s.payload) ∧ s.out.tempFx = tempFxOf (rawT s.payload)

/-- The codes of FST and of ECAUSE; FST's is never 11 (R17, R20). -/
def Obligations.CodesOfFrameStateAndCause : Prop :=
  FrameState.idle.code = 0b00#2 ∧ FrameState.active.code = 0b01#2 ∧ FrameState.done.code = 0b10#2 ∧
  (∀ f : FrameState, f.code ≠ 0b11#2) ∧
  ECause.none.code = 0b00#2 ∧ ECause.illegalCmd.code = 0b01#2 ∧ ECause.frameSeq.code = 0b10#2 ∧
  ECause.frameConflict.code = 0b11#2

/-- In a state that satisfies the invariants, the host's outcome is a Reading of the exact scaled values exactly while MATCH = 1, the
checksum mismatch exactly in DONE with MATCH = 0, and neither otherwise (R62, R63). -/
def Obligations.ReadingOnlyWhileMatched : Prop :=
  ∀ s : State, Inv s →
    (s.matched = true → takeReading s.out = .reading (scaleHumidity s.out.rawH) (scaleTemperature s.out.rawT) ∧
      readRaw s.out = some s.payload.bytes ∧ s.out.mismatch = false) ∧
    (s.fst = .done → s.matched = false → takeReading s.out = .checksumMismatch ∧ readRaw s.out = none) ∧
    (s.fst ≠ .done → takeReading s.out = .pending ∧ readRaw s.out = none)

/-- The step lemma behind R62's "the six bytes pushed in the last frame": if the registers hold the frame tracked from the edges so far,
then after the step that takes the next edge they hold the frame tracked over that edge too. -/
def Obligations.StepKeepsTrackedFrame : Prop :=
  ∀ (s t : State) (e : Edge) (rest : List Edge) (frame : List Byte), s.edges = e :: rest → Inv s → HoldsFrame frame s →
    step s = .next t → HoldsFrame (trackFrame frame e) t
end

