-- ==== Sys2Proof/Laws/Crc.lean ====
section
/-! SUPPORT. The byte update is linear over GF(2) and loses nothing (spec 40_crc.md R45), and the checksum of a longer input extends the
checksum of a shorter one. -/

namespace Sys2Proof.Machine

open Sys2Proof

theorem crc8Update_eq (r d : Byte) : crc8Update r d = crc8Shifts 8 (r ^^^ d) := rfl

/-- The polynomial where the high bit is set, as a mask: the form in which one iteration is seen to be linear. -/
theorem crc8Shift_eq (v : Byte) : crc8Shift v = (v <<< 1) ^^^ (if v.msb then Config.crcPoly else 0#8) := by
  unfold crc8Shift
  split <;> simp

theorem crc8Shift_xor (a b : Byte) : crc8Shift (a ^^^ b) = crc8Shift a ^^^ crc8Shift b := by
  rw [crc8Shift_eq, crc8Shift_eq, crc8Shift_eq, BitVec.msb_xor, BitVec.shiftLeft_xor_distrib]
  generalize a <<< 1 = x
  generalize b <<< 1 = y
  generalize Config.crcPoly = p
  have h : x ^^^ p ^^^ (y ^^^ p) = x ^^^ y ^^^ (p ^^^ p) := by ac_rfl
  cases a.msb <;> cases b.msb <;> simp only [Bool.xor_self, Bool.true_xor, Bool.false_xor, Bool.not_false,
    if_true, if_false, Bool.false_eq_true, BitVec.xor_zero, h, BitVec.xor_self] <;> ac_rfl

theorem crc8Shifts_xor (n : Nat) (a b : Byte) : crc8Shifts n (a ^^^ b) = crc8Shifts n a ^^^ crc8Shifts n b := by
  induction n generalizing a b with
  | zero => rfl
  | succ n ih => simp only [crc8Shifts, crc8Shift_xor, ih]

/-- Eight iterations send only 0 to 0, so by linearity they lose nothing. -/
theorem crc8Shifts_eight_eq_zero : ∀ v : Byte, crc8Shifts 8 v = 0#8 → v = 0#8 := by decide

theorem crc8Shifts_eight_injective {a b : Byte} (h : crc8Shifts 8 a = crc8Shifts 8 b) : a = b := by
  have hz : crc8Shifts 8 (a ^^^ b) = 0#8 := by rw [crc8Shifts_xor, h, BitVec.xor_self]
  have := crc8Shifts_eight_eq_zero _ hz
  exact BitVec.xor_eq_zero_iff.mp this

theorem crc8Update_right_injective {r d e : Byte} (h : crc8Update r d = crc8Update r e) : d = e := by
  simpa using crc8Shifts_eight_injective h

theorem crc8Update_left_injective {r q d : Byte} (h : crc8Update r d = crc8Update q d) : r = q := by
  simpa using crc8Shifts_eight_injective h

@[simp] theorem computeChecksum_nil : computeChecksum [] = 0xFF#8 := rfl

theorem computeChecksum_snoc (bs : List Byte) (b : Byte) :
    computeChecksum (bs ++ [b]) = crc8Update (computeChecksum bs) b := by
  simp [computeChecksum]

end Sys2Proof.Machine
end

