-- ==== Sys2Proof/Laws/Decode.lean ====
section
/-! SUPPORT. The fields of a word put together from its bytes, and the bytes of a word. -/

namespace Sys2Proof

@[simp] theorem opOf_wordOf (op d : Byte) : opOf (wordOf op d) = op := by
  show (op ++ d).extractLsb' 8 8 = op
  exact BitVec.extractLsb'_append_eq_left

@[simp] theorem dataOf_wordOf (op d : Byte) : dataOf (wordOf op d) = d := by
  show (op ++ d).extractLsb' 0 8 = d
  exact BitVec.extractLsb'_append_eq_right

theorem wordOf_fields (w : CmdWord) : wordOf (opOf w) (dataOf w) = w := by
  apply BitVec.eq_of_toNat_eq
  show (w.extractLsb' 8 8 ++ w.extractLsb' 0 8).toNat = w.toNat
  have := w.isLt
  simp only [BitVec.toNat_append, BitVec.extractLsb'_toNat, Nat.shiftRight_eq_div_pow, Nat.shiftLeft_eq]
  rw [← Nat.shiftLeft_eq, ← Nat.shiftLeft_add_eq_or_of_lt (by omega), Nat.shiftLeft_eq]
  omega

/-- The decoder on a word put together from its fields: OP chooses, DATA is the operand. -/
theorem decode_wordOf (op d : Byte) : decode (wordOf op d) =
    match op with
    | 0x00#8 => .command .nop
    | 0x01#8 => .command .crcInit
    | 0x02#8 => .command (.crcFeed d)
    | 0x03#8 => .command .frmStart
    | 0x04#8 => .command (.frmPush d)
    | 0x05#8 => .command .errClr
    | 0x08#8 => .command (.payWr0 d)
    | 0x09#8 => .command (.payWr1 d)
    | 0x0A#8 => .command (.payWr2 d)
    | 0x0B#8 => .command (.payWr3 d)
    | 0x0C#8 => .command (.payWr4 d)
    | 0x0D#8 => .command (.payWr5 d)
    | op => .reserved op := by
  unfold decode
  rw [opOf_wordOf, dataOf_wordOf] <;> rfl

/-- The opcode mask of R39 keeps OP and clears DATA. -/
theorem wordOf_and_opMask (op d : Byte) : wordOf op d &&& 0xFF00#16 = wordOf op 0x00#8 := by
  have h : (0xFF00#16 : CmdWord) = wordOf 0xFF#8 0x00#8 := by decide
  rw [h]
  show (op ++ d) &&& (0xFF#8 ++ 0x00#8) = op ++ 0x00#8
  rw [BitVec.and_append, BitVec.and_zero, show op &&& 0xFF#8 = op from BitVec.and_allOnes]

end Sys2Proof
end

