-- ==== Sys2Proof/Laws/State.lean ====
section
/-! SUPPORT. What each register update leaves in each field: one lemma per field per update, true by rfl. -/

namespace Sys2Proof.Machine

open Sys2Proof

variable (s : State)

@[simp] theorem raiseError_crc (c : Cause) : (raiseError c s).crc = s.crc := rfl
@[simp] theorem raiseError_payload (c : Cause) : (raiseError c s).payload = s.payload := rfl
@[simp] theorem raiseError_chk (c : Cause) : (raiseError c s).chk = s.chk := rfl
@[simp] theorem raiseError_fst (c : Cause) : (raiseError c s).fst = s.fst := rfl
@[simp] theorem raiseError_idx (c : Cause) : (raiseError c s).idx = s.idx := rfl
@[simp] theorem raiseError_matched (c : Cause) : (raiseError c s).matched = s.matched := rfl
@[simp] theorem raiseError_err (c : Cause) : (raiseError c s).err = true := rfl
@[simp] theorem raiseError_ecause (c : Cause) : (raiseError c s).ecause = ecauseAfter s.err s.ecause c := rfl
@[simp] theorem raiseError_edges (c : Cause) : (raiseError c s).edges = s.edges := rfl

@[simp] theorem clearError_crc : (clearError s).crc = s.crc := rfl
@[simp] theorem clearError_payload : (clearError s).payload = s.payload := rfl
@[simp] theorem clearError_chk : (clearError s).chk = s.chk := rfl
@[simp] theorem clearError_fst : (clearError s).fst = s.fst := rfl
@[simp] theorem clearError_idx : (clearError s).idx = s.idx := rfl
@[simp] theorem clearError_matched : (clearError s).matched = s.matched := rfl
@[simp] theorem clearError_err : (clearError s).err = false := rfl
@[simp] theorem clearError_ecause : (clearError s).ecause = .none := rfl
@[simp] theorem clearError_edges : (clearError s).edges = s.edges := rfl

@[simp] theorem setCrc_crc (v : Byte) : (setCrc v s).crc = v := rfl
@[simp] theorem setCrc_payload (v : Byte) : (setCrc v s).payload = s.payload := rfl
@[simp] theorem setCrc_chk (v : Byte) : (setCrc v s).chk = s.chk := rfl
@[simp] theorem setCrc_fst (v : Byte) : (setCrc v s).fst = s.fst := rfl
@[simp] theorem setCrc_idx (v : Byte) : (setCrc v s).idx = s.idx := rfl
@[simp] theorem setCrc_matched (v : Byte) : (setCrc v s).matched = s.matched := rfl
@[simp] theorem setCrc_err (v : Byte) : (setCrc v s).err = s.err := rfl
@[simp] theorem setCrc_ecause (v : Byte) : (setCrc v s).ecause = s.ecause := rfl
@[simp] theorem setCrc_edges (v : Byte) : (setCrc v s).edges = s.edges := rfl

@[simp] theorem writePayloadDirect_crc (k : Fin 6) (b : Byte) : (writePayloadDirect k b s).crc = s.crc := rfl
@[simp] theorem writePayloadDirect_payload (k : Fin 6) (b : Byte) : (writePayloadDirect k b s).payload = s.payload.write k b := rfl
@[simp] theorem writePayloadDirect_chk (k : Fin 6) (b : Byte) : (writePayloadDirect k b s).chk = s.chk := rfl
@[simp] theorem writePayloadDirect_fst (k : Fin 6) (b : Byte) : (writePayloadDirect k b s).fst = .idle := rfl
@[simp] theorem writePayloadDirect_idx (k : Fin 6) (b : Byte) : (writePayloadDirect k b s).idx = 0#3 := rfl
@[simp] theorem writePayloadDirect_matched (k : Fin 6) (b : Byte) : (writePayloadDirect k b s).matched = false := rfl
@[simp] theorem writePayloadDirect_err (k : Fin 6) (b : Byte) : (writePayloadDirect k b s).err = s.err := rfl
@[simp] theorem writePayloadDirect_ecause (k : Fin 6) (b : Byte) : (writePayloadDirect k b s).ecause = s.ecause := rfl
@[simp] theorem writePayloadDirect_edges (k : Fin 6) (b : Byte) : (writePayloadDirect k b s).edges = s.edges := rfl

@[simp] theorem startFrame_crc : (startFrame s).crc = Config.crcInit := rfl
@[simp] theorem startFrame_payload : (startFrame s).payload = s.payload := rfl
@[simp] theorem startFrame_chk : (startFrame s).chk = s.chk := rfl
@[simp] theorem startFrame_fst : (startFrame s).fst = .active := rfl
@[simp] theorem startFrame_idx : (startFrame s).idx = 0#3 := rfl
@[simp] theorem startFrame_matched : (startFrame s).matched = false := rfl
@[simp] theorem startFrame_err : (startFrame s).err = s.err := rfl
@[simp] theorem startFrame_ecause : (startFrame s).ecause = s.ecause := rfl
@[simp] theorem startFrame_edges : (startFrame s).edges = s.edges := rfl

@[simp] theorem takePayloadByte_crc (k : Fin 6) (b : Byte) : (takePayloadByte k b s).crc = crc8Update s.crc b := rfl
@[simp] theorem takePayloadByte_payload (k : Fin 6) (b : Byte) : (takePayloadByte k b s).payload = s.payload.write k b := rfl
@[simp] theorem takePayloadByte_chk (k : Fin 6) (b : Byte) : (takePayloadByte k b s).chk = s.chk := rfl
@[simp] theorem takePayloadByte_fst (k : Fin 6) (b : Byte) : (takePayloadByte k b s).fst = s.fst := rfl
@[simp] theorem takePayloadByte_idx (k : Fin 6) (b : Byte) : (takePayloadByte k b s).idx = s.idx + 1#3 := rfl
@[simp] theorem takePayloadByte_matched (k : Fin 6) (b : Byte) : (takePayloadByte k b s).matched = s.matched := rfl
@[simp] theorem takePayloadByte_err (k : Fin 6) (b : Byte) : (takePayloadByte k b s).err = s.err := rfl
@[simp] theorem takePayloadByte_ecause (k : Fin 6) (b : Byte) : (takePayloadByte k b s).ecause = s.ecause := rfl
@[simp] theorem takePayloadByte_edges (k : Fin 6) (b : Byte) : (takePayloadByte k b s).edges = s.edges := rfl

@[simp] theorem takeChecksumByte_crc (b : Byte) : (takeChecksumByte b s).crc = s.crc := rfl
@[simp] theorem takeChecksumByte_payload (b : Byte) : (takeChecksumByte b s).payload = s.payload := rfl
@[simp] theorem takeChecksumByte_chk (b : Byte) : (takeChecksumByte b s).chk = b := rfl
@[simp] theorem takeChecksumByte_fst (b : Byte) : (takeChecksumByte b s).fst = .done := rfl
@[simp] theorem takeChecksumByte_idx (b : Byte) : (takeChecksumByte b s).idx = 7#3 := rfl
@[simp] theorem takeChecksumByte_matched (b : Byte) : (takeChecksumByte b s).matched = checksumMatches s.crc b := rfl
@[simp] theorem takeChecksumByte_err (b : Byte) : (takeChecksumByte b s).err = s.err := rfl
@[simp] theorem takeChecksumByte_ecause (b : Byte) : (takeChecksumByte b s).ecause = s.ecause := rfl
@[simp] theorem takeChecksumByte_edges (b : Byte) : (takeChecksumByte b s).edges = s.edges := rfl

@[simp] theorem resetRegisters_crc : (resetRegisters s).crc = 0xFF#8 := rfl
@[simp] theorem resetRegisters_payload : (resetRegisters s).payload = ⟨0x00#8, 0x00#8, 0x00#8, 0x00#8, 0x00#8, 0x00#8⟩ := rfl
@[simp] theorem resetRegisters_chk : (resetRegisters s).chk = 0x00#8 := rfl
@[simp] theorem resetRegisters_fst : (resetRegisters s).fst = .idle := rfl
@[simp] theorem resetRegisters_idx : (resetRegisters s).idx = 0#3 := rfl
@[simp] theorem resetRegisters_matched : (resetRegisters s).matched = false := rfl
@[simp] theorem resetRegisters_err : (resetRegisters s).err = false := rfl
@[simp] theorem resetRegisters_ecause : (resetRegisters s).ecause = .none := rfl
@[simp] theorem resetRegisters_edges : (resetRegisters s).edges = s.edges := rfl

@[simp] theorem payload_bytes_length (p : Payload) : p.bytes.length = 6 := rfl

@[simp] theorem read_write_same (p : Payload) (k : Fin 6) (b : Byte) : (p.write k b).read k = b := by
  match k with
  | 0 => rfl
  | 1 => rfl
  | 2 => rfl
  | 3 => rfl
  | 4 => rfl
  | 5 => rfl

end Sys2Proof.Machine
end

