-- ==== Sys2Proof/Laws/Operands.lean ====
section
/-! SUPPORT. The payload register file and its index: what a write does to every register, and what IDX selects. -/

namespace Sys2Proof.Machine

open Sys2Proof

theorem read_write (p : Payload) (j k : Fin 6) (b : Byte) :
    (p.write k b).read j = if j = k then b else p.read j := by
  revert j k
  simp only [Fin.forall_fin_succ, Fin.forall_fin_zero]
  simp [Payload.write, Payload.read]

/-- The payload is determined by its six registers. -/
theorem payload_ext {p q : Payload} (h : ∀ k, p.read k = q.read k) : p = q := by
  obtain ⟨a0, a1, a2, a3, a4, a5⟩ := p
  obtain ⟨b0, b1, b2, b3, b4, b5⟩ := q
  simp only [Payload.mk.injEq]
  exact ⟨h 0, h 1, h 2, h 3, h 4, h 5⟩

/-- Writing register k makes the first k + 1 bytes the first k and the new one. -/
theorem write_bytes_take (p : Payload) (k : Fin 6) (b : Byte) :
    (p.write k b).bytes.take (k.val + 1) = p.bytes.take k.val ++ [b] := by
  match k with
  | 0 => rfl
  | 1 => rfl
  | 2 => rfl
  | 3 => rfl
  | 4 => rfl
  | 5 => rfl

theorem payloadIndex_some {idx : BitVec 3} {k : Fin 6} (h : payloadIndexOf idx = some k) : idx.toNat = k.val := by
  unfold payloadIndexOf at h
  split at h
  · cases h; rfl
  · cases h

theorem payloadIndex_none {idx : BitVec 3} (h : payloadIndexOf idx = none) : 6 ≤ idx.toNat := by
  unfold payloadIndexOf at h
  split at h
  · cases h
  · omega

theorem payloadIndex_of_eq {idx : BitVec 3} {k : Fin 6} (h : idx.toNat = k.val) : payloadIndexOf idx = some k := by
  have hk : idx.toNat < 6 := by omega
  simp only [payloadIndexOf, hk, dite_true, Option.some.injEq]
  exact Fin.ext h

end Sys2Proof.Machine
end

