-- ==== Sys2Proof/Laws/Ops.lean ====
section
/-! SUPPORT. What the guard against an active frame can answer, and what the error action does to ECAUSE. -/

namespace Sys2Proof.Machine

open Sys2Proof

/-- Everything the guard can answer: the error in ACTIVE, else the effect. -/
theorem unlessActive_next {f : State → State} {s t : State} (h : unlessActive f s = .next t) :
    (s.fst = .active ∧ t = raiseError .frameConflict s) ∨ (s.fst ≠ .active ∧ t = f s) := by
  unfold unlessActive at h
  split at h <;> cases h
  · exact .inl ⟨‹_›, rfl⟩
  · exact .inr ⟨‹_›, rfl⟩

/-- Once ERR is set, an error action changes nothing (R74). -/
theorem raiseError_of_err {c : Cause} {s : State} (h : s.err = true) : raiseError c s = s := by
  cases s
  simp_all [raiseError, ecauseAfter]

theorem raiseError_twice (c d : Cause) (s : State) : raiseError d (raiseError c s) = raiseError c s :=
  raiseError_of_err rfl

theorem recorded_ne_none (c : Cause) : c.recorded ≠ .none := by
  cases c <;> simp [Cause.recorded]

end Sys2Proof.Machine
end

