-- ==== Sys2Proof/Laws/Exec.lean ====
section
/-! SUPPORT. The inversion lemmas: everything a command can do, everything an edge can do, everything a step can do. Later proofs
cite these instead of unfolding the meanings. -/

namespace Sys2Proof.Machine

open Sys2Proof Sys2Proof.Safety

/-- What a command does to the state: its effect, or its error action (R69). -/
def effectOf (i : Instr) (s : State) : State :=
  match i with
  | .nop => s
  | .crcInit => if s.fst = .active then raiseError .frameConflict s else setCrc Config.crcInit s
  | .crcFeed b => if s.fst = .active then raiseError .frameConflict s else setCrc (crc8Update s.crc b) s
  | .frmStart => startFrame s
  | .frmPush b => if s.fst = .active then takeFrameByte b s else raiseError .frameSeq s
  | .errClr => clearError s
  | .payWr0 b => if s.fst = .active then raiseError .frameConflict s else writePayloadDirect 0 b s
  | .payWr1 b => if s.fst = .active then raiseError .frameConflict s else writePayloadDirect 1 b s
  | .payWr2 b => if s.fst = .active then raiseError .frameConflict s else writePayloadDirect 2 b s
  | .payWr3 b => if s.fst = .active then raiseError .frameConflict s else writePayloadDirect 3 b s
  | .payWr4 b => if s.fst = .active then raiseError .frameConflict s else writePayloadDirect 4 b s
  | .payWr5 b => if s.fst = .active then raiseError .frameConflict s else writePayloadDirect 5 b s

theorem unlessActive_eq (f : State → State) (s : State) :
    unlessActive f s = .next (if s.fst = .active then raiseError .frameConflict s else f s) := by
  unfold unlessActive
  split <;> rfl

theorem execFrmPush_eq (b : Byte) (s : State) :
    execFrmPush b s = .next (if s.fst = .active then takeFrameByte b s else raiseError .frameSeq s) := by
  unfold execFrmPush
  split <;> rfl

/-- Every command answers a next state. -/
theorem exec_eq_effectOf (i : Instr) (s : State) : exec i s = .next (effectOf i s) := by
  cases i with
  | nop => rfl
  | crcInit => exact unlessActive_eq _ s
  | crcFeed b => exact unlessActive_eq _ s
  | frmStart => rfl
  | frmPush b => exact execFrmPush_eq b s
  | errClr => rfl
  | payWr0 b => exact unlessActive_eq _ s
  | payWr1 b => exact unlessActive_eq _ s
  | payWr2 b => exact unlessActive_eq _ s
  | payWr3 b => exact unlessActive_eq _ s
  | payWr4 b => exact unlessActive_eq _ s
  | payWr5 b => exact unlessActive_eq _ s

/-- What a frame byte does (R59). -/
theorem takeFrameByte_cases (b : Byte) (s : State) :
    (∃ k : Fin 6, s.idx.toNat = k.val ∧ takeFrameByte b s = takePayloadByte k b s) ∨
    (6 ≤ s.idx.toNat ∧ takeFrameByte b s = takeChecksumByte b s) := by
  unfold takeFrameByte
  split
  · exact .inl ⟨_, payloadIndex_some ‹_›, rfl⟩
  · exact .inr ⟨payloadIndex_none ‹_›, rfl⟩

/-- Everything a command can do. -/
theorem exec_next_cases {i : Instr} {s t : State} (h : exec i s = .next t) :
    (i = .nop ∧ t = s) ∨
    (i = .errClr ∧ t = clearError s) ∨
    (i = .frmStart ∧ t = startFrame s) ∨
    (conflictsWithFrame i = true ∧ s.fst = .active ∧ t = raiseError .frameConflict s) ∨
    (i = .crcInit ∧ s.fst ≠ .active ∧ t = setCrc Config.crcInit s) ∨
    (∃ b, i = .crcFeed b ∧ s.fst ≠ .active ∧ t = setCrc (crc8Update s.crc b) s) ∨
    (∃ k b, i = payWrCommand k b ∧ s.fst ≠ .active ∧ t = writePayloadDirect k b s) ∨
    (∃ b, i = .frmPush b ∧ s.fst ≠ .active ∧ t = raiseError .frameSeq s) ∨
    (∃ b, ∃ k : Fin 6, i = .frmPush b ∧ s.fst = .active ∧ s.idx.toNat = k.val ∧ t = takePayloadByte k b s) ∨
    (∃ b, i = .frmPush b ∧ s.fst = .active ∧ 6 ≤ s.idx.toNat ∧ t = takeChecksumByte b s) := by
  rw [exec_eq_effectOf] at h
  obtain rfl : effectOf i s = t := by injection h
  by_cases ha : s.fst = .active
  · cases i with
    | frmPush b =>
      rcases takeFrameByte_cases b s with ⟨k, hk, e⟩ | ⟨hk, e⟩
      · exact .inr (.inr (.inr (.inr (.inr (.inr (.inr (.inr (.inl ⟨b, k, rfl, ha, hk, by simp [effectOf, ha, e]⟩))))))))
      · simp [effectOf, ha, e, hk, conflictsWithFrame]
    | _ => simp [effectOf, ha, conflictsWithFrame]
  · cases i with
    | payWr0 b => exact .inr (.inr (.inr (.inr (.inr (.inr (.inl ⟨0, b, rfl, ha, by simp [effectOf, ha]⟩))))))
    | payWr1 b => exact .inr (.inr (.inr (.inr (.inr (.inr (.inl ⟨1, b, rfl, ha, by simp [effectOf, ha]⟩))))))
    | payWr2 b => exact .inr (.inr (.inr (.inr (.inr (.inr (.inl ⟨2, b, rfl, ha, by simp [effectOf, ha]⟩))))))
    | payWr3 b => exact .inr (.inr (.inr (.inr (.inr (.inr (.inl ⟨3, b, rfl, ha, by simp [effectOf, ha]⟩))))))
    | payWr4 b => exact .inr (.inr (.inr (.inr (.inr (.inr (.inl ⟨4, b, rfl, ha, by simp [effectOf, ha]⟩))))))
    | payWr5 b => exact .inr (.inr (.inr (.inr (.inr (.inr (.inl ⟨5, b, rfl, ha, by simp [effectOf, ha]⟩))))))
    | _ => simp [effectOf, ha]

/-- Everything an edge can do. -/
theorem clockEdge_next_cases {e : Edge} {s t : State} (h : clockEdge e s = .next t) :
    (e.rst = true ∧ t = resetRegisters s) ∨
    (e.rst = false ∧ e.cmdValid = false ∧ t = s) ∨
    (PresentsReserved e ∧ t = raiseError .illegalCmd s) ∨
    (∃ i, Accepts e i ∧ exec i s = .next t) := by
  unfold clockEdge at h
  split at h
  · cases h; exact .inl ⟨‹_›, rfl⟩
  · rename_i hr
    have hr : e.rst = false := by simpa using hr
    split at h
    · rename_i hv
      unfold execWord at h
      split at h
      · rename_i i hd
        exact .inr (.inr (.inr ⟨i, ⟨hr, hv, hd⟩, h⟩))
      · rename_i op hd
        cases h
        exact .inr (.inr (.inl ⟨⟨hr, hv, op, hd⟩, rfl⟩))
    · rename_i hv
      cases h
      exact .inr (.inl ⟨hr, by simpa using hv, rfl⟩)

theorem step_nil {s : State} (h : s.edges = []) : step s = .next s := by simp [step, h]

theorem step_cons {s : State} {e : Edge} {rest : List Edge} (h : s.edges = e :: rest) :
    step s = clockEdge e { s with edges := rest } := by simp [step, h]

end Sys2Proof.Machine
end

