-- ==== Sys2Proof/Laws/PerInstr.lean ====
section
/-! SUPPORT. The family EncodedRow: every command is well formed, its row is in the table of R39, and its word matches that row. -/

namespace Sys2Proof.Laws.EncodedRow

open Sys2Proof

/-- The command passes the checks of R43, and the first row its word matches is the row of its own mnemonic. -/
def Statement (i : Instr) : Prop :=
  i.wellFormed = true ∧ (matchingRowOf (encode i)).map OpcodeRow.mnemonic = some i.mnemonic

theorem operand_isByte (b : Byte) : isByte b.toNat = true := by
  have := b.isLt
  simpa [isByte] using this

/-- The row a word matches depends on its OP alone, since every mask is 0xFF00. -/
theorem matchingRow_wordOf (op d : Byte) : matchingRowOf (wordOf op d) = matchingRowOf (wordOf op 0x00#8) := by
  simp only [matchingRowOf, opcodeTable, List.find?, wordOf_and_opMask]

/-- The row of an OP, whatever the operand. -/
theorem row_of_op (m : String) (op b : Byte) (h : (matchingRowOf (wordOf op 0x00#8)).map OpcodeRow.mnemonic = some m) :
    (matchingRowOf (wordOf op b)).map OpcodeRow.mnemonic = some m := by
  rw [matchingRow_wordOf, h]

theorem nop : Statement .nop := ⟨rfl, row_of_op "NOP" 0x00#8 0x00#8 (by decide)⟩
theorem crcInit : Statement .crcInit := ⟨rfl, row_of_op "CRC.INIT" 0x01#8 0x00#8 (by decide)⟩
theorem crcFeed (b : Byte) : Statement (.crcFeed b) := ⟨operand_isByte b, row_of_op "CRC.FEED" 0x02#8 b (by decide)⟩
theorem frmStart : Statement .frmStart := ⟨rfl, row_of_op "FRM.START" 0x03#8 0x00#8 (by decide)⟩
theorem frmPush (b : Byte) : Statement (.frmPush b) := ⟨operand_isByte b, row_of_op "FRM.PUSH" 0x04#8 b (by decide)⟩
theorem errClr : Statement .errClr := ⟨rfl, row_of_op "ERR.CLR" 0x05#8 0x00#8 (by decide)⟩
theorem payWr0 (b : Byte) : Statement (.payWr0 b) := ⟨operand_isByte b, row_of_op "PAY.WR_0" 0x08#8 b (by decide)⟩
theorem payWr1 (b : Byte) : Statement (.payWr1 b) := ⟨operand_isByte b, row_of_op "PAY.WR_1" 0x09#8 b (by decide)⟩
theorem payWr2 (b : Byte) : Statement (.payWr2 b) := ⟨operand_isByte b, row_of_op "PAY.WR_2" 0x0A#8 b (by decide)⟩
theorem payWr3 (b : Byte) : Statement (.payWr3 b) := ⟨operand_isByte b, row_of_op "PAY.WR_3" 0x0B#8 b (by decide)⟩
theorem payWr4 (b : Byte) : Statement (.payWr4 b) := ⟨operand_isByte b, row_of_op "PAY.WR_4" 0x0C#8 b (by decide)⟩
theorem payWr5 (b : Byte) : Statement (.payWr5 b) := ⟨operand_isByte b, row_of_op "PAY.WR_5" 0x0D#8 b (by decide)⟩

end Sys2Proof.Laws.EncodedRow
end

