-- ==== Sys2Proof/Laws/Run.lean ====
section
/-! SUPPORT. Runs: every edge answers a next state and takes nothing but itself from the host's edges, so a run unrolls edge by
edge. -/

namespace Sys2Proof.Machine

open Sys2Proof Sys2Proof.Safety

/-- No command touches the host's coming edges. -/
theorem exec_edges {i : Instr} {s t : State} (h : exec i s = .next t) : t.edges = s.edges := by
  rcases exec_next_cases h with ⟨-, rfl⟩ | ⟨-, rfl⟩ | ⟨-, rfl⟩ | ⟨-, -, rfl⟩ | ⟨-, -, rfl⟩ | ⟨_, -, -, rfl⟩ |
    ⟨_, _, -, -, rfl⟩ | ⟨_, -, -, rfl⟩ | ⟨_, _, -, -, -, rfl⟩ | ⟨_, -, -, -, rfl⟩ <;> rfl

theorem clockEdge_edges {e : Edge} {s t : State} (h : clockEdge e s = .next t) : t.edges = s.edges := by
  rcases clockEdge_next_cases h with ⟨-, rfl⟩ | ⟨-, -, rfl⟩ | ⟨-, rfl⟩ | ⟨i, -, hi⟩
  · rfl
  · rfl
  · rfl
  · exact exec_edges hi

/-- Every edge answers a next state. -/
theorem clockEdge_answers (e : Edge) (s : State) : ∃ t, clockEdge e s = .next t := by
  unfold clockEdge execWord
  split
  · exact ⟨_, rfl⟩
  · split
    · split
      · exact ⟨_, exec_eq_effectOf _ _⟩
      · exact ⟨_, rfl⟩
    · exact ⟨_, rfl⟩

theorem machine_run_next (M : Host.Core) {n : Nat} {s t : M.State} (h : M.step s = .next t) :
    M.run (n + 1) s = M.run n t := by
  simp only [Host.Core.run, h]

/-- A step that answers a next state is one turn of the run. -/
theorem run_next {n : Nat} {s t : State} (h : step s = .next t) :
    Sys2Proof.core.run (n + 1) s = Sys2Proof.core.run n t :=
  machine_run_next Sys2Proof.core h

theorem runEdges_nil (s : State) : runEdges [] s = .next { s with edges := [] } := rfl

/-- A run over one edge and then others. -/
theorem runEdges_cons {e : Edge} {es : List Edge} {s t : State} (h : clockEdge e { s with edges := es } = .next t) :
    runEdges (e :: es) s = runEdges es t := by
  have he : t.edges = es := clockEdge_edges h
  have ht : { t with edges := es } = t := by cases t; cases he; rfl
  have hs : step { s with edges := e :: es } = .next t := by rw [step_cons rfl]; exact h
  rw [runEdges, List.length_cons, run_next hs, runEdges, ht]

end Sys2Proof.Machine
end

