-- ==== Sys2Proof/Tests/Slice0.lean ====
section
/-! SUPPORT. The model's own tests. Expected results come from the vectors of spec/95_test_vectors.md (V-..) and from the encoding table of
30_encoding.md R39. Then, for every obligation with hypotheses, a witness that meets them. -/

namespace Sys2Proof.Tests

open Sys2Proof Sys2Proof.Machine Sys2Proof.Safety

/-- The state a step or a run answers, if it answers one. -/
def after (o : Host.Outcome State Fault Refusal) : Option State :=
  match o with
  | .next t => some t
  | .fault _ => none
  | .refused _ => none

/-- A small state: reset, but for CRC and the frame registers. -/
def small (crc : Byte) (fst : FrameState) (idx : BitVec 3) (matched : Bool) : State :=
  { State.reset with crc := crc, fst := fst, idx := idx, matched := matched }

/-! ### Well-formedness: an ill-formed line for each check of R43 and R44 -/

theorem test_wf_crcFeed_byte : (AsmLine.crcFeed 256).wellFormed = false := by decide
theorem test_wf_frmPush_byte : (AsmLine.frmPush 256).wellFormed = false := by decide
theorem test_wf_payWr_index : (AsmLine.payWr 6 0).wellFormed = false := by decide
theorem test_wf_payWr_byte : (AsmLine.payWr 5 256).wellFormed = false := by decide
theorem test_wf_word : (AsmLine.word 65536).wellFormed = false := by decide
theorem test_wf_crcCalc_byte : (AsmLine.crcCalc [255, 256]).wellFormed = false := by decide
theorem test_wf_payLoad_length : (AsmLine.payLoad [0, 1, 2, 3, 4]).wellFormed = false := by decide
theorem test_wf_payLoad_byte : (AsmLine.payLoad [0, 1, 2, 3, 4, 256]).wellFormed = false := by decide
theorem test_wf_frmLoad_length : (AsmLine.frmLoad [0, 1, 2, 3, 4, 5]).wellFormed = false := by decide
theorem test_wf_frmLoad_byte : (AsmLine.frmLoad [0, 1, 2, 3, 4, 5, 256]).wellFormed = false := by decide
theorem test_wf_accepts : (AsmLine.payWr 5 255).wellFormed = true ∧ (AsmLine.frmLoad [0, 1, 2, 3, 4, 5, 6]).wellFormed = true := by
  decide

/-! ### Decode: a word of every row, bit by bit from R39 -/

theorem test_decode_nop : decode 0b00000000_11111111#16 = .command .nop := by decide
theorem test_decode_crcInit : decode 0b00000001_10100101#16 = .command .crcInit := by decide
theorem test_decode_crcFeed : decode 0b00000010_01000010#16 = .command (.crcFeed 0x42#8) := by decide
theorem test_decode_frmStart : decode 0b00000011_00000000#16 = .command .frmStart := by decide
theorem test_decode_frmPush : decode 0b00000100_00011100#16 = .command (.frmPush 0x1C#8) := by decide
theorem test_decode_errClr : decode 0b00000101_00000001#16 = .command .errClr := by decide
theorem test_decode_payWr0 : decode 0b00001000_01010101#16 = .command (.payWr0 0x55#8) := by decide
theorem test_decode_payWr1 : decode 0b00001001_01101011#16 = .command (.payWr1 0x6B#8) := by decide
theorem test_decode_payWr2 : decode 0b00001010_00101110#16 = .command (.payWr2 0x2E#8) := by decide
theorem test_decode_payWr3 : decode 0b00001011_00000110#16 = .command (.payWr3 0x06#8) := by decide
theorem test_decode_payWr4 : decode 0b00001100_11000001#16 = .command (.payWr4 0xC1#8) := by decide
theorem test_decode_payWr5 : decode 0b00001101_00111111#16 = .command (.payWr5 0x3F#8) := by decide
theorem test_decode_reserved :
    decode 0x06FF#16 = .reserved 0x06#8 ∧ decode 0x0700#16 = .reserved 0x07#8 ∧ decode 0x0E55#16 = .reserved 0x0E#8 ∧
    decode 0x0F00#16 = .reserved 0x0F#8 ∧ decode 0x1000#16 = .reserved 0x10#8 ∧ decode 0xFF00#16 = .reserved 0xFF#8 := by decide
theorem test_decodeTableWord : decodeTableWord 16 0x0B06 = some (.payWr3 0x06#8) ∧ decodeTableWord 16 0x0E55 = none := by decide

/-! ### One command at a time -/

/-- V-K1. -/
theorem test_nop : after (exec .nop (small 0x9E#8 .active 3#3 false)) = some (small 0x9E#8 .active 3#3 false) := by decide
/-- V-C1. -/
theorem test_crcInit : (after (exec .crcInit (small 0x5A#8 .idle 0#3 false))).map State.crc = some 0xFF#8 := by decide
/-- V-C13. -/
theorem test_crcInit_active : (after (exec .crcInit (small 0x9E#8 .active 3#3 false))).map (fun t => (t.crc, t.err, t.ecause)) =
    some (0x9E#8, true, .frameConflict) := by decide
/-- V-C3. -/
theorem test_crcFeed : (after (exec (.crcFeed 0x42#8) (small 0xFF#8 .idle 0#3 false))).map State.crc = some 0xF3#8 := by decide
/-- V-C11: in DONE the feed changes CRC but not MATCH. -/
theorem test_crcFeed_done : (after (exec (.crcFeed 0x00#8) (small 0x4E#8 .done 7#3 true))).map (fun t => (t.crc, t.matched)) =
    some (0x22#8, true) := by decide
/-- V-F2. -/
theorem test_frmStart_done : after (exec .frmStart (small 0x4E#8 .done 7#3 true)) = some (small 0xFF#8 .active 0#3 false) := by decide
/-- V-F3: a restart, without an error. -/
theorem test_frmStart_active : after (exec .frmStart (small 0x86#8 .active 4#3 false)) = some (small 0xFF#8 .active 0#3 false) := by decide
/-- V-F5. -/
theorem test_frmPush_last_byte : (after (exec (.frmPush 0x00#8) (small 0x65#8 .active 5#3 false))).map
    (fun t => (t.payload.p5, t.crc, t.idx)) = some (0x00#8, 0x4E#8, 6#3) := by decide
/-- V-F6. -/
theorem test_frmPush_checksum : (after (exec (.frmPush 0x4E#8) (small 0x4E#8 .active 6#3 false))).map
    (fun t => (t.chk, t.matched, t.fst, t.idx, t.crc)) = some (0x4E#8, true, .done, 7#3, 0x4E#8) := by decide
/-- V-K4. -/
theorem test_errClr : after (exec .errClr { small 0x9E#8 .active 3#3 false with err := true, ecause := .frameConflict }) =
    some (small 0x9E#8 .active 3#3 false) := by decide
/-- V-U14. -/
theorem test_payWr0_active : after (exec (.payWr0 0x55#8) (small 0x56#8 .active 2#3 false)) =
    some { small 0x56#8 .active 2#3 false with err := true, ecause := .frameConflict } := by decide
/-- P4, line 2. -/
theorem test_payWr1 : (after (exec (.payWr1 0x6B#8) State.reset)).map (fun t => t.out.rawH) = some 0x6B000#20 := by decide
/-- P4, line 3, from P[1] = 0x6B. -/
theorem test_payWr2 : (after (exec (.payWr2 0x2E#8) { State.reset with payload := ⟨0x1C#8, 0x6B#8, 0, 0, 0, 0⟩ })).map (fun t => t.out.rawH) =
    some 0x6B2E0#20 := by decide
/-- V-U12. -/
theorem test_payWr3 : (after (exec (.payWr3 0x06#8) State.reset)).map (fun t => (t.payload.p3, t.fst, t.idx, t.matched)) =
    some (0x06#8, .idle, 0#3, false) := by decide
/-- P4, line 5, from P[3] = 0xA5. -/
theorem test_payWr4 : (after (exec (.payWr4 0xC1#8) { State.reset with payload := ⟨0, 0, 0, 0xA5#8, 0, 0⟩ })).map (fun t => t.out.rawT) =
    some 0x5C100#20 := by decide
/-- V-U13: the frame is no longer validated, even though the byte is the same. -/
theorem test_payWr5_done : after (exec (.payWr5 0x00#8) (small 0x4E#8 .done 7#3 true)) = some (small 0x4E#8 .idle 0#3 false) := by decide

/-! ### Errors, edges and outputs -/

/-- V-F8. -/
theorem test_push_done : after (exec (.frmPush 0x00#8) (small 0x4E#8 .done 7#3 true)) =
    some { small 0x4E#8 .done 7#3 true with err := true, ecause := .frameSeq } := by decide
/-- V-E1. -/
theorem test_reserved : after (execWord 0x1234#16 State.reset) = some { State.reset with err := true, ecause := .illegalCmd } := by decide
/-- V-E4: the first cause is kept. -/
theorem test_first_cause : after (execWord 0x1234#16 { State.reset with err := true, ecause := .frameConflict }) =
    some { State.reset with err := true, ecause := .frameConflict } := by decide
/-- V-K5: no command. -/
theorem test_idle_edge : after (step { small 0x9E#8 .active 3#3 false with edges := [⟨false, false, 0x0300#16⟩] }) =
    some (small 0x9E#8 .active 3#3 false) := by decide
/-- V-R3: no error is raised at a reset edge. -/
theorem test_reset_edge : after (step { small 0x9E#8 .active 3#3 false with err := true, ecause := .frameConflict, edges := [⟨true, true, 0x1234#16⟩] }) =
    some State.reset := by decide
theorem test_placed_word : after (step (State.reset.withFetchWord 16 0x0242)) = some { State.reset with crc := 0xF3#8 } := by decide

/-- V-U9. -/
theorem test_out_bytes : (State.out { State.reset with payload := ⟨0xAB#8, 0x12#8, 0x34#8, 0x56#8, 0x78#8, 0x9A#8⟩ }).rawH = 0x12345#20 ∧
    (State.out { State.reset with payload := ⟨0xAB#8, 0x12#8, 0x34#8, 0x56#8, 0x78#8, 0x9A#8⟩ }).rawT = 0x6789A#20 ∧
    (State.out { State.reset with payload := ⟨0xAB#8, 0x12#8, 0x34#8, 0x56#8, 0x78#8, 0x9A#8⟩ }).humFx = 0x01C71BD#25 ∧
    (State.out { State.reset with payload := ⟨0xAB#8, 0x12#8, 0x34#8, 0x56#8, 0x78#8, 0x9A#8⟩ }).tempFx = 0x03DC70A#26 := by decide
/-- V-U6: just below 0 degrees. -/
theorem test_out_negative : tempFxOf 0x3FFFF#20 = 0x3FFFFE7#26 := by decide
set_option maxRecDepth 8000 in
/-- V-C21. -/
theorem test_checksum : computeChecksum [0x1C#8, 0x6B#8, 0x2E#8, 0xA5#8, 0xC1#8, 0x3F#8] = 0x08#8 := by decide
set_option maxRecDepth 8000 in
/-- R43: one command a line, decimal and hexadecimal numbers, a comment, a blank line; the words by the table of R43. -/
theorem test_assemble_text : assembleText "FRM.PUSH 24 ; b\n\nPAY.WR 3, 0xA5" = some [0x0418#16, 0x0BA5#16] := by decide
/-- R43: a byte out of range is refused. -/
theorem test_assemble_text_refused : assembleText "CRC.FEED 256" = none := by decide

/-! ### Witnesses: every obligation's hypotheses can be met -/

/-- A frame in progress, with k bytes of the payload received. -/
def inFrame (idx : BitVec 3) : State := small 0xFF#8 .active idx false

/-- FRM.LOAD of six zero bytes with the checksum 0x6A (V-C22). -/
def zeroFrame : List Edge := edgesOf [0x0300#16, 0x0400#16, 0x0400#16, 0x0400#16, 0x0400#16, 0x0400#16, 0x0400#16, 0x046A#16]

theorem reset_inv : Inv State.reset := ⟨by decide, by decide, by decide, by decide, by decide, by decide⟩
theorem reset_frameInv : FrameInv State.reset := ⟨by decide, by decide⟩
theorem inFrame_zero_inv : Inv (inFrame 0#3) ∧ FrameInv (inFrame 0#3) :=
  ⟨⟨by decide, by decide, by decide, by decide, by decide, by decide⟩, ⟨by decide, by decide⟩⟩
theorem inFrame_six_inv : Inv (inFrame 6#3) := ⟨by decide, by decide, by decide, by decide, by decide, by decide⟩
theorem done_inv (m : Bool) : Inv (small 0x6A#8 .done 7#3 m) :=
  ⟨by cases m <;> decide, (by intro h; cases h), (by intro h; cases h), fun _ => rfl, fun _ => rfl, by cases m <;> decide⟩

/-- The invariants do not speak of the host's coming edges. -/
theorem inv_withEdges {s : State} (es : List Edge) (h : Inv s) : Inv { s with edges := es } :=
  ⟨h.fst_code, h.idle_idx, h.active_idx, h.done_idx, h.matched_done, h.err_ecause⟩

/-- The premises of a statement about one step: an edge at the head and the next state. -/
def stepsTo (s : State) (e : Edge) (t : State) : Prop := s.edges = [e] ∧ step s = .next t

theorem witness_DecoderFollowsOpcodeTable :
    decode 0x0242#16 = .command (.crcFeed 0x42#8) ∧ (Instr.crcFeed 0x42#8).operandOf = some 0x42#8 ∧
    ∀ r ∈ opcodeTable, (0x0600#16 : CmdWord) &&& r.mask ≠ r.pattern := by decide
theorem witness_ReservedOpcodesRaiseIllegalCmd :
    decode (wordOf 0x06#8 0xFF#8) = .reserved 0x06#8 ∧ decode (wordOf 0xFF#8 0x00#8) = .reserved 0xFF#8 := by decide
theorem witness_DataReadAsIsOrIgnored : decode (wordOf 0x10#8 0xA5#8) = .reserved 0x10#8 := by decide
theorem witness_PseudoInstructionExpansions : State.reset.fst ≠ .active := by decide
theorem witness_StepIsOneClockEdge :
    State.reset.edges = [] ∧ ({ State.reset with edges := [resetEdge] } : State).edges = [resetEdge] ∧ resetEdge.rst = true ∧
    (⟨false, false, 0x0300#16⟩ : Edge).rst = false ∧ (⟨false, false, 0x0300#16⟩ : Edge).cmdValid = false ∧
    (Edge.ofWord 0x0242#16).rst = false ∧ (Edge.ofWord 0x0242#16).cmdValid = true ∧
    decode (Edge.ofWord 0x0242#16).cmd = .command (.crcFeed 0x42#8) ∧ decode (Edge.ofWord 0x0E00#16).cmd = .reserved 0x0E#8 := by
  decide
theorem witness_PlacedWordRunsNext : decodeTableWord 16 0x0D3F = some (.payWr5 0x3F#8) := by decide
theorem witness_ResetEdgeGivesResetState :
    ∃ (s : State) (e : Edge), s.edges = [e] ∧ e.rst = true ∧ s.fst = .active ∧ ∀ f ∈ [resetEdge, ⟨true, true, 0x0242#16⟩], f.rst = true :=
  ⟨{ inFrame 3#3 with edges := [resetEdge] }, resetEdge, rfl, rfl, rfl, by decide⟩
theorem witness_CrcInitResult : State.reset.fst ≠ .active ∧ (inFrame 0#3).fst = .active := by decide
theorem witness_CrcFeedResult : (small 0x4E#8 .done 7#3 true).fst ≠ .active ∧ (inFrame 6#3).fst = .active := by decide
theorem witness_ChecksumByCommandSequence :
    State.reset.fst ≠ .active ∧ (([⟨false, false, 0x0300#16⟩, Edge.ofWord 0x01A5#16, Edge.ofWord 0x00FF#16, Edge.ofWord 0x0242#16] : List Edge).filter
      (fun e => !isQuiet e)).map acceptedCommand = [some .crcInit, some (.crcFeed 0x42#8)] := by decide
theorem witness_ChecksumSeesOneByteChange : (0x34#8 : Byte) ≠ 0x35#8 := by decide
theorem witness_PayWrResult : (small 0x4E#8 .done 7#3 true).fst ≠ .active ∧ (inFrame 2#3).fst = .active := by decide
theorem witness_UnpackerReadsBytesOneToFive :
    ∃ s t : State, s.payload.p0 ≠ t.payload.p0 ∧ s.chk ≠ t.chk ∧ s.payload.p1 = t.payload.p1 ∧ s.payload.p2 = t.payload.p2 ∧
      s.payload.p3.extractLsb' 4 4 = t.payload.p3.extractLsb' 4 4 ∧ s.payload.p3 ≠ t.payload.p3 ∧
      s.payload.p4 = t.payload.p4 ∧ s.payload.p5 = t.payload.p5 :=
  ⟨State.reset, { State.reset with payload := ⟨1, 0, 0, 0x0F#8, 0, 0⟩, chk := 1 }, by decide, by decide, rfl, rfl, by decide, by decide, rfl, rfl⟩
theorem witness_UnpackerReadsBytesOneToFive_low :
    (0xF6#8 : Byte).extractLsb' 0 4 = (0x06#8 : Byte).extractLsb' 0 4 := by decide
theorem witness_DirectAndFramePathsAgree : (small 0x00#8 .done 7#3 false).fst ≠ .active := by decide
theorem witness_FrmPushResult :
    (inFrame 0#3).idx.toNat = (0 : Fin 6).val ∧ (inFrame 5#3).idx.toNat = (5 : Fin 6).val ∧ (inFrame 6#3).idx = 6#3 ∧
    (inFrame 6#3).fst = .active ∧ State.reset.fst ≠ .active := by decide
set_option maxRecDepth 8000 in
theorem witness_FinishedFrameIsLastFramePushed :
    ∃ t, runEdges (resetEdge :: zeroFrame) State.reset = .next t ∧ t.fst = .done ∧ t.matched = true := ⟨_, rfl, by decide, by decide⟩
theorem witness_FrameSurvivesStrayCommands :
    (edgesOf [0x0400#16, 0x0255#16, 0x0401#16, 0x1234#16, 0x0402#16, 0x0500#16, 0x0403#16, 0x0855#16, 0x0404#16, 0x0000#16,
      0x0405#16, 0x0100#16]).filterMap pushedByte = [0x00#8, 0x01#8, 0x02#8, 0x03#8, 0x04#8, 0x05#8] ∧
    ([0x00#8, 0x01#8, 0x02#8, 0x03#8, 0x04#8, 0x05#8] : List Byte).length = 6 ∧
    ∀ e ∈ edgesOf [0x0400#16, 0x0255#16, 0x0401#16, 0x1234#16, 0x0402#16, 0x0500#16, 0x0403#16, 0x0855#16, 0x0404#16, 0x0000#16,
      0x0405#16, 0x0100#16], e.rst = false ∧ acceptedCommand e ≠ some .frmStart := by decide
theorem witness_ErrClrResult : State.reset.err = false ∧ State.reset.ecause = .none ∧ exec .errClr State.reset = .next (clearError State.reset) :=
  ⟨rfl, rfl, rfl⟩
theorem witness_ErrorActionIsWholeEffect :
    ∃ t, State.reset.err = false ∧ execWord 0x1234#16 State.reset = .next t ∧ t.err = true := ⟨_, rfl, rfl, rfl⟩
theorem witness_CauseDeterminedByCommand_illegal :
    ∃ t, stepsTo { State.reset with edges := [Edge.ofWord 0x1234#16] } (Edge.ofWord 0x1234#16) t ∧ t.ecause = .illegalCmd :=
  ⟨_, ⟨rfl, rfl⟩, rfl⟩
theorem witness_CauseDeterminedByCommand_seq :
    ∃ t, stepsTo { State.reset with edges := [Edge.ofWord 0x041C#16] } (Edge.ofWord 0x041C#16) t ∧ t.ecause = .frameSeq :=
  ⟨_, ⟨rfl, rfl⟩, rfl⟩
theorem witness_CauseDeterminedByCommand_conflict :
    ∃ t, stepsTo { inFrame 6#3 with edges := [Edge.ofWord 0x0D00#16] } (Edge.ofWord 0x0D00#16) t ∧ t.ecause = .frameConflict :=
  ⟨_, ⟨rfl, rfl⟩, rfl⟩
theorem witness_FirstCauseKept :
    ({ State.reset with err := true, ecause := .frameSeq } : State).err = true ∧
    ∀ e ∈ edgesOf [0x1234#16, 0x041C#16, 0x0300#16], e.rst = false ∧ acceptedCommand e ≠ some .errClr := by decide
theorem witness_RepeatedCommandChangesNothing :
    exec .frmStart State.reset = .next (startFrame State.reset) ∧ (∀ b, Instr.frmStart ≠ .crcFeed b) ∧ (∀ b, Instr.frmStart ≠ .frmPush b) ∧
    decode 0x0655#16 = .reserved (opOf 0x0655#16) ∧ (inFrame 0#3).fst = .active ∧ State.reset.fst ≠ .active :=
  ⟨rfl, by simp, by simp, by decide, rfl, by decide⟩
theorem witness_WritersOfCrc :
    ∃ t, stepsTo { inFrame 5#3 with edges := [Edge.ofWord 0x0400#16] } (Edge.ofWord 0x0400#16) t ∧ t.crc ≠ (inFrame 5#3).crc :=
  ⟨_, ⟨rfl, rfl⟩, by decide⟩
theorem witness_CrcReadOnlyByComparison :
    ∃ t, exec (.frmPush 0x6A#8) (inFrame 6#3) = .next t ∧
      ∃ t', exec (.frmPush 0x6A#8) { inFrame 6#3 with crc := 0x6A#8 } = .next t' ∧ t'.matched ≠ t.matched :=
  ⟨_, rfl, _, rfl, by decide⟩
theorem witness_WritersOfPayloadAndChk :
    ∃ s t, stepsTo s (Edge.ofWord 0x0401#16) t ∧ Inv s ∧ t.payload.read 0 ≠ s.payload.read 0 :=
  ⟨{ inFrame 0#3 with edges := [Edge.ofWord 0x0401#16] }, _, ⟨rfl, rfl⟩, inv_withEdges _ inFrame_zero_inv.1, by decide⟩
theorem witness_WritersOfPayloadAndChk_direct :
    ∃ s t, stepsTo s (Edge.ofWord 0x0D01#16) t ∧ Inv s ∧ t.payload.read 5 ≠ s.payload.read 5 :=
  ⟨{ State.reset with edges := [Edge.ofWord 0x0D01#16] }, _, ⟨rfl, rfl⟩, inv_withEdges _ reset_inv, by decide⟩
theorem witness_WritersOfPayloadAndChk_checksum :
    ∃ s t, stepsTo s (Edge.ofWord 0x0401#16) t ∧ Inv s ∧ t.chk ≠ s.chk :=
  ⟨{ inFrame 6#3 with edges := [Edge.ofWord 0x0401#16] }, _, ⟨rfl, rfl⟩, inv_withEdges _ inFrame_six_inv, by decide⟩
theorem witness_WritersOfFrameState :
    ∃ s t, stepsTo s (Edge.ofWord 0x04FF#16) t ∧ Inv s ∧ t.fst ≠ s.fst ∧ t.idx ≠ s.idx ∧ t.matched ≠ s.matched :=
  ⟨{ inFrame 6#3 with edges := [Edge.ofWord 0x04FF#16] }, _, ⟨rfl, rfl⟩, inv_withEdges _ inFrame_six_inv, by decide, by decide,
    by decide⟩
theorem witness_WritersOfFrameState_direct :
    ∃ s t, stepsTo s (Edge.ofWord 0x0800#16) t ∧ Inv s ∧ t.fst ≠ s.fst ∧ t.idx ≠ s.idx ∧ t.matched ≠ s.matched :=
  ⟨{ small 0x6A#8 .done 7#3 true with edges := [Edge.ofWord 0x0800#16] }, _, ⟨rfl, rfl⟩, inv_withEdges _ (done_inv true), by decide,
    by decide, by decide⟩
theorem witness_WritersOfErrorFlags :
    ∃ t, stepsTo { State.reset with edges := [Edge.ofWord 0x0E55#16] } (Edge.ofWord 0x0E55#16) t ∧ t.err ≠ State.reset.err :=
  ⟨_, ⟨rfl, rfl⟩, by decide⟩
theorem witness_WritersOfErrorFlags_clear :
    ∃ t, stepsTo { State.reset with err := true, ecause := .frameSeq, edges := [Edge.ofWord 0x0500#16] } (Edge.ofWord 0x0500#16) t ∧
      t.err ≠ true := ⟨_, ⟨rfl, rfl⟩, by decide⟩
theorem witness_StepKeepsInvariants :
    ∃ s t, Inv s ∧ step s = .next t ∧ t.fst = .active ∧ ∃ u, runEdges [resetEdge, Edge.ofWord 0x0300#16] s = .next u :=
  ⟨State.reset.withFetchWord 16 0x0300, _, inv_withEdges _ reset_inv, rfl, rfl, _, rfl⟩
theorem witness_StepKeepsFrameMeaning : ∃ s t, Inv s ∧ FrameInv s ∧ step s = .next t ∧ t.idx = 1#3 :=
  ⟨{ inFrame 0#3 with edges := [Edge.ofWord 0x041C#16] }, _, inv_withEdges _ inFrame_zero_inv.1,
    ⟨inFrame_zero_inv.2.active_crc, inFrame_zero_inv.2.done_matched⟩, rfl, rfl⟩
set_option maxRecDepth 8000 in
theorem witness_RunsAfterResetAreSound : ∃ t, runEdges (resetEdge :: zeroFrame) (inFrame 7#3) = .next t ∧ t.matched = true :=
  ⟨_, rfl, by decide⟩
theorem witness_StepKeepsTrackedFrame_payload :
    ∃ s t, stepsTo s (Edge.ofWord 0x041C#16) t ∧ Inv s ∧ HoldsFrame [] s ∧ t.fst = .active ∧ t.idx = 1#3 :=
  ⟨{ inFrame 0#3 with edges := [Edge.ofWord 0x041C#16] }, _, ⟨rfl, rfl⟩, inv_withEdges _ inFrame_zero_inv.1,
    ⟨fun _ => ⟨rfl, rfl⟩, by decide⟩, rfl, rfl⟩
theorem witness_StepKeepsTrackedFrame_checksum :
    ∃ s t, stepsTo s (Edge.ofWord 0x04FF#16) t ∧ Inv s ∧ HoldsFrame [0, 0, 0, 0, 0, 0] s ∧ t.fst = .done :=
  ⟨{ inFrame 6#3 with edges := [Edge.ofWord 0x04FF#16] }, _, ⟨rfl, rfl⟩, inv_withEdges _ inFrame_six_inv,
    ⟨fun _ => ⟨rfl, rfl⟩, by decide⟩, rfl⟩
theorem witness_ReadingOnlyWhileMatched :
    Inv (small 0x6A#8 .done 7#3 true) ∧ (small 0x6A#8 .done 7#3 true).matched = true ∧
    Inv (small 0x6A#8 .done 7#3 false) ∧ (small 0x6A#8 .done 7#3 false).matched = false ∧
    Inv State.reset ∧ State.reset.fst ≠ .done :=
  ⟨done_inv true, rfl, done_inv false, rfl, reset_inv, by decide⟩

end Sys2Proof.Tests
end

/-! PROOFS. Family 10_state: the invariants of R25 are kept by every step and hold after a reset edge (O44), and the outputs of R21,
one by one (O47). -/

namespace Sys2Proof.Machine

open Sys2Proof Sys2Proof.Safety

/-! ### The outputs (R21) -/

@[simp] theorem out_active_iff (s : State) : s.out.active = true ↔ s.fst = .active := by simp [State.out]

@[simp] theorem out_done_iff (s : State) : s.out.done = true ↔ s.fst = .done := by simp [State.out]

@[simp] theorem out_mismatch_iff (s : State) : s.out.mismatch = true ↔ s.fst = .done ∧ s.matched = false := by simp [State.out]

/-- Settles O47: FST's three outputs compare it with a named state, every other output is a register or a function of registers. -/
theorem outputsOfState : Obligations.OutputsOfState := fun s =>
  ⟨rfl, rfl, rfl, rfl, rfl, rfl, rfl, rfl, rfl, out_active_iff s, out_done_iff s, rfl, out_mismatch_iff s, rfl, rfl, rfl, rfl, rfl, rfl⟩

/-! ### The invariants under each register update (R25) -/

theorem fst_code_ne_three (f : FrameState) : f.code ≠ 0b11#2 := by cases f <;> decide

/-- ECAUSE's code is 00 only for NONE (R20). -/
theorem ecause_code_eq_zero_iff (c : ECause) : c.code = 0b00#2 ↔ c = .none := by cases c <;> decide

/-- The invariants do not speak of the host's coming edges. -/
theorem inv_with_edges {s : State} (es : List Edge) (h : Inv s) : Inv { s with edges := es } := { h with }

theorem inv_resetRegisters (s : State) : Inv (resetRegisters s) where
  fst_code := fst_code_ne_three _
  idle_idx _ := rfl
  active_idx ha := by simp at ha
  done_idx hd := by simp at hd
  matched_done hm := by simp at hm
  err_ecause := by simp [ecause_code_eq_zero_iff]

/-- An error action leaves a cause in ECAUSE: its own, or the one that came with ERR = 1 (R69, R74). -/
theorem ecauseAfter_ne_none {s : State} (h : Inv s) (c : Cause) : ecauseAfter s.err s.ecause c ≠ .none := by
  have herr := h.err_ecause
  rw [ecause_code_eq_zero_iff] at herr
  cases hs : s.err with
  | false => exact recorded_ne_none c
  | true => simpa [hs, ecauseAfter] using herr

theorem inv_raiseError {s : State} (c : Cause) (h : Inv s) : Inv (raiseError c s) :=
  { h with err_ecause := by simpa [ecause_code_eq_zero_iff] using ecauseAfter_ne_none h c }

theorem inv_clearError {s : State} (h : Inv s) : Inv (clearError s) :=
  { h with err_ecause := by simp [ecause_code_eq_zero_iff] }

theorem inv_setCrc {s : State} (v : Byte) (h : Inv s) : Inv (setCrc v s) := { h with }

theorem inv_writePayloadDirect {s : State} (k : Fin 6) (b : Byte) (h : Inv s) : Inv (writePayloadDirect k b s) where
  fst_code := fst_code_ne_three _
  idle_idx _ := rfl
  active_idx ha := by simp at ha
  done_idx hd := by simp at hd
  matched_done hm := by simp at hm
  err_ecause := h.err_ecause

theorem inv_startFrame {s : State} (h : Inv s) : Inv (startFrame s) where
  fst_code := fst_code_ne_three _
  idle_idx hi := by simp at hi
  active_idx _ := by simp
  done_idx hd := by simp at hd
  matched_done hm := by simp at hm
  err_ecause := h.err_ecause

/-- A payload byte's index is at most 5, so IDX counts up without wrapping and stays within 6. -/
theorem inv_takePayloadByte {s : State} {k : Fin 6} (b : Byte) (ha : s.fst = .active) (hk : s.idx.toNat = k.val) (h : Inv s) :
    Inv (takePayloadByte k b s) where
  fst_code := fst_code_ne_three _
  idle_idx hi := by simp [ha] at hi
  active_idx _ := by
    have := k.isLt
    simp only [takePayloadByte_idx, BitVec.toNat_add, BitVec.toNat_ofNat]
    omega
  done_idx hd := by simp [ha] at hd
  matched_done := h.matched_done
  err_ecause := h.err_ecause

theorem inv_takeChecksumByte {s : State} (b : Byte) (h : Inv s) : Inv (takeChecksumByte b s) where
  fst_code := fst_code_ne_three _
  idle_idx hi := by simp at hi
  active_idx ha := by simp at ha
  done_idx _ := rfl
  matched_done _ := rfl
  err_ecause := h.err_ecause

/-! ### The invariants under commands, edges, steps and runs -/

theorem exec_keeps_inv {i : Instr} {s t : State} (h : Inv s) (he : exec i s = .next t) : Inv t := by
  rcases exec_next_cases he with ⟨-, rfl⟩ | ⟨-, rfl⟩ | ⟨-, rfl⟩ | ⟨-, -, rfl⟩ | ⟨-, -, rfl⟩ | ⟨b, -, -, rfl⟩ |
    ⟨k, b, -, -, rfl⟩ | ⟨b, -, -, rfl⟩ | ⟨b, k, -, ha, hk, rfl⟩ | ⟨b, -, -, -, rfl⟩
  · exact h
  · exact inv_clearError h
  · exact inv_startFrame h
  · exact inv_raiseError _ h
  · exact inv_setCrc _ h
  · exact inv_setCrc _ h
  · exact inv_writePayloadDirect k b h
  · exact inv_raiseError _ h
  · exact inv_takePayloadByte b ha hk h
  · exact inv_takeChecksumByte b h

theorem clockEdge_keeps_inv {e : Edge} {s t : State} (h : Inv s) (he : clockEdge e s = .next t) : Inv t := by
  rcases clockEdge_next_cases he with ⟨-, rfl⟩ | ⟨-, -, rfl⟩ | ⟨-, rfl⟩ | ⟨i, -, hi⟩
  · exact inv_resetRegisters s
  · exact h
  · exact inv_raiseError _ h
  · exact exec_keeps_inv h hi

theorem step_keeps_inv {s t : State} (h : Inv s) (hs : step s = .next t) : Inv t := by
  cases he : s.edges with
  | nil =>
    rw [step_nil he] at hs
    cases hs
    exact h
  | cons e rest =>
    rw [step_cons he] at hs
    exact clockEdge_keeps_inv (inv_with_edges rest h) hs

/-- A predicate on the registers that every edge keeps is kept by every run. -/
theorem runEdges_induction {P : State → Prop} (withEdges : ∀ (s : State) (es : List Edge), P s → P { s with edges := es })
    (edge : ∀ (e : Edge) (s t : State), P s → clockEdge e s = .next t → P t)
    {es : List Edge} {s t : State} (hs : P s) (h : runEdges es s = .next t) : P t := by
  induction es generalizing s with
  | nil =>
    cases h
    exact withEdges s [] hs
  | cons e es ih =>
    obtain ⟨u, hu⟩ := clockEdge_answers e { s with edges := es }
    rw [runEdges_cons hu] at h
    exact ih (edge e _ u (withEdges s es hs) hu) h

/-- After a reset edge the run is the one from the reset state, whatever the state was (R80, R82). -/
theorem runEdges_resetEdge (es : List Edge) (s : State) : runEdges (resetEdge :: es) s = runEdges es State.reset := by
  rw [runEdges_cons (t := resetRegisters { s with edges := es }) rfl]
  rfl

/-- Settles O44: each register update keeps the invariants, hence each step does; after a reset edge they hold, and the run's induction
carries them to its end. -/
theorem stepKeepsInvariants : Obligations.StepKeepsInvariants := by
  refine ⟨fun s t => step_keeps_inv, fun s t es h => ?_⟩
  rw [runEdges_resetEdge] at h
  have hreset : Inv State.reset := inv_resetRegisters State.reset
  exact runEdges_induction (fun _ => inv_with_edges) (fun _ _ _ => clockEdge_keeps_inv) hreset h

end Sys2Proof.Machine

/-! PROOFS. Family 20_memory: which bits of raw_h and raw_t each payload byte holds (R27, O21). Each raw field is three parts side by
side, and its bit ranges are read back by the offset of the part. -/

namespace Sys2Proof.Machine

open Sys2Proof

section ThreeParts

variable {u v w : Nat} (hi : BitVec u) (mid : BitVec v) (lo : BitVec w)

theorem extractLsb'_high_of_three : (hi ++ mid ++ lo).extractLsb' (v + w) u = hi := by
  rw [BitVec.extractLsb'_append_eq_of_le (Nat.le_add_left w v), Nat.add_sub_cancel, BitVec.extractLsb'_append_eq_left]

theorem extractLsb'_middle_of_three : (hi ++ mid ++ lo).extractLsb' w v = mid := by
  rw [BitVec.extractLsb'_append_eq_of_le le_rfl, Nat.sub_self, BitVec.extractLsb'_append_eq_right]

end ThreeParts

/-! ### The bit ranges of raw_h and raw_t (R27) -/

@[simp] theorem rawH_bits_19_12 (p : Payload) : (rawH p).extractLsb' 12 8 = p.p1 :=
  extractLsb'_high_of_three p.p1 p.p2 (p.p3.extractLsb' 4 4)

@[simp] theorem rawH_bits_11_4 (p : Payload) : (rawH p).extractLsb' 4 8 = p.p2 :=
  extractLsb'_middle_of_three p.p1 p.p2 (p.p3.extractLsb' 4 4)

@[simp] theorem rawH_bits_3_0 (p : Payload) : (rawH p).extractLsb' 0 4 = p.p3.extractLsb' 4 4 :=
  BitVec.extractLsb'_append_eq_right (a := p.p1 ++ p.p2)

@[simp] theorem rawT_bits_19_16 (p : Payload) : (rawT p).extractLsb' 16 4 = p.p3.extractLsb' 0 4 :=
  extractLsb'_high_of_three (p.p3.extractLsb' 0 4) p.p4 p.p5

@[simp] theorem rawT_bits_15_8 (p : Payload) : (rawT p).extractLsb' 8 8 = p.p4 :=
  extractLsb'_middle_of_three (p.p3.extractLsb' 0 4) p.p4 p.p5

@[simp] theorem rawT_bits_7_0 (p : Payload) : (rawT p).extractLsb' 0 8 = p.p5 :=
  BitVec.extractLsb'_append_eq_right (a := p.p3.extractLsb' 0 4 ++ p.p4)

/-- Settles O21: the six bit ranges, each read back from its raw field. -/
theorem payloadPacking : Obligations.PayloadPacking := fun p =>
  ⟨(rawH_bits_19_12 p).symm, (rawH_bits_11_4 p).symm, (rawH_bits_3_0 p).symm,
    (rawT_bits_19_16 p).symm, (rawT_bits_15_8 p).symm, (rawT_bits_7_0 p).symm⟩

end Sys2Proof.Machine

/-! PROOFS. Family 30_encoding: the decoder read through the OP of each command (O2, O5), the reserved OP values (O3), and the expansion of
the pseudo-instructions (O7). -/

namespace Sys2Proof

/-! ### What the decoder answers: OP chooses the command, DATA is its operand (R36, R37, R39) -/

theorem op_eq_of_decode_command {w : CmdWord} {i : Instr} (h : decode w = .command i) : i.op = opOf w := by
  unfold decode at h
  split at h <;> cases h <;> exact Eq.symm ‹_›

theorem operand_eq_of_decode_command {w : CmdWord} {i : Instr} (h : decode w = .command i) :
    ∀ b, i.operandOf = some b → b = dataOf w := by
  unfold decode at h
  split at h <;> cases h <;> simp [Instr.operandOf]

theorem no_command_of_decode_reserved {w : CmdWord} {op : Byte} (h : decode w = .reserved op) :
    op = opOf w ∧ ∀ i : Instr, i.op ≠ opOf w := by
  unfold decode at h
  split at h <;> cases h
  exact ⟨rfl, fun i => by cases i <;> exact Ne.symm ‹_›⟩

/-- A word with a command's OP, and its operand as DATA if it has one, decodes to that command. -/
theorem decode_wordOf_op (i : Instr) {d : Byte} (h : ∀ b, i.operandOf = some b → b = d) :
    decode (wordOf i.op d) = .command i := by
  rw [decode_wordOf]
  cases i <;> simp_all [Instr.op, Instr.operandOf]

/-- A word is reserved exactly when no command has its OP (R40). -/
theorem decode_wordOf_reserved_iff {op d : Byte} : decode (wordOf op d) = .reserved op ↔ ∀ i : Instr, i.op ≠ op := by
  constructor
  · intro h
    simpa using (no_command_of_decode_reserved h).2
  · intro h
    cases hd : decode (wordOf op d) with
    | command i => exact absurd (by simpa using op_eq_of_decode_command hd) (h i)
    | reserved op' => rw [(no_command_of_decode_reserved hd).1, opOf_wordOf]

theorem decode_wordOf_command_iff {op d : Byte} : (∃ i, decode (wordOf op d) = .command i) ↔ ∃ i : Instr, i.op = op := by
  constructor
  · rintro ⟨i, hi⟩
    exact ⟨i, by simpa using op_eq_of_decode_command hi⟩
  · rintro ⟨i, hi⟩
    cases hd : decode (wordOf op d) with
    | command j => exact ⟨j, rfl⟩
    | reserved op' => exact absurd (by simpa using hi) ((no_command_of_decode_reserved hd).2 i)

/-! ### The rows of the opcode table (R39) -/

/-- The row of a command: its OP under the opcode mask. -/
def Instr.row (i : Instr) : OpcodeRow := ⟨i.mnemonic, wordOf i.op 0x00#8, 0xFF00#16⟩

/-- A command of each row. -/
def rowCommands : List Instr :=
  [.nop, .crcInit, .crcFeed 0, .frmStart, .frmPush 0, .errClr, .payWr0 0, .payWr1 0, .payWr2 0, .payWr3 0, .payWr4 0, .payWr5 0]

theorem opcodeTable_eq_rows : opcodeTable = rowCommands.map Instr.row := by decide

theorem row_mem_opcodeTable (i : Instr) : i.row ∈ opcodeTable := by
  cases i <;> simp [opcodeTable, Instr.row, Instr.mnemonic, Instr.op, wordOf]

/-- The table has no row but those of the commands. -/
theorem exists_row_of_mem_opcodeTable {r : OpcodeRow} (h : r ∈ opcodeTable) : ∃ i : Instr, r = i.row := by
  rw [opcodeTable_eq_rows] at h
  obtain ⟨i, -, rfl⟩ := List.mem_map.mp h
  exact ⟨i, rfl⟩

/-- No two rows share a mnemonic or a pattern. -/
theorem rows_mnemonic_eq_iff : ∀ r ∈ opcodeTable, ∀ q ∈ opcodeTable, r.mnemonic = q.mnemonic ↔ r.pattern = q.pattern := by decide

theorem wordOf_left_injective {op op' d : Byte} (h : wordOf op d = wordOf op' d) : op = op' := by
  simpa using congrArg opOf h

theorem mnemonic_eq_iff_op_eq (i j : Instr) : i.mnemonic = j.mnemonic ↔ i.op = j.op :=
  calc i.mnemonic = j.mnemonic
    _ ↔ wordOf i.op 0x00#8 = wordOf j.op 0x00#8 := rows_mnemonic_eq_iff _ (row_mem_opcodeTable i) _ (row_mem_opcodeTable j)
    _ ↔ i.op = j.op := ⟨wordOf_left_injective, fun h => by rw [h]⟩

/-- A word matches a command's row when it has the command's OP. -/
theorem matches_row_iff (w : CmdWord) (i : Instr) : w &&& i.row.mask = i.row.pattern ↔ i.op = opOf w := by
  rw [← wordOf_fields w]
  simp only [Instr.row, wordOf_and_opMask, opOf_wordOf]
  exact ⟨fun h => (wordOf_left_injective h).symm, fun h => by rw [h]⟩

theorem matches_row_iff_decode (w : CmdWord) (j : Instr) :
    w &&& j.row.mask = j.row.pattern ↔ ∃ i, decode w = .command i ∧ i.mnemonic = j.row.mnemonic := by
  rw [matches_row_iff]
  constructor
  · intro hj
    obtain ⟨i, hi⟩ := (decode_wordOf_command_iff (d := dataOf w)).mpr ⟨j, hj⟩
    rw [wordOf_fields] at hi
    exact ⟨i, hi, (mnemonic_eq_iff_op_eq i j).mpr ((op_eq_of_decode_command hi).trans hj.symm)⟩
  · rintro ⟨i, hi, hm⟩
    rw [← op_eq_of_decode_command hi, (mnemonic_eq_iff_op_eq i j).mp hm]

/-- Settles O2: the rows are those of the commands, and both a row's match and the decoder look at OP alone. -/
theorem decoderFollowsOpcodeTable : Obligations.DecoderFollowsOpcodeTable := by
  refine fun w => ⟨fun r hr => ?_, fun i b hi => operand_eq_of_decode_command hi b, fun hno => ?_⟩
  · obtain ⟨j, rfl⟩ := exists_row_of_mem_opcodeTable hr
    exact matches_row_iff_decode w j
  · cases hd : decode w with
    | command i =>
      have hmatch := (matches_row_iff w i).mpr (op_eq_of_decode_command hd)
      exact absurd hmatch (hno i.row (row_mem_opcodeTable i))
    | reserved op => rw [(no_command_of_decode_reserved hd).1]

end Sys2Proof

namespace Sys2Proof.Machine

open Sys2Proof Sys2Proof.Safety

/-! ### The reserved OP values (R40, R70) -/

/-- The OP values of commands are 00 to 05 and 08 to 0D. -/
theorem no_command_op_iff (op : Byte) : (∀ i : Instr, i.op ≠ op) ↔ op.toNat = 6 ∨ op.toNat = 7 ∨ 14 ≤ op.toNat := by
  constructor
  · intro h
    have hrows : ∀ i ∈ rowCommands, i.op ≠ op := fun i _ => h i
    simp only [rowCommands, Instr.op, List.forall_mem_cons, ne_eq, ← BitVec.toNat_inj, BitVec.toNat_ofNat] at hrows
    omega
  · rintro h i rfl
    cases i <;> simp [Instr.op] at h

theorem decode_reserved_iff_toNat (op d : Byte) :
    decode (wordOf op d) = .reserved op ↔ op.toNat = 6 ∨ op.toNat = 7 ∨ 14 ≤ op.toNat :=
  decode_wordOf_reserved_iff.trans (no_command_op_iff op)

theorem execWord_command {w : CmdWord} {i : Instr} (h : decode w = .command i) (s : State) : execWord w s = exec i s := by
  simp only [execWord, h]

theorem execWord_reserved {w : CmdWord} {op : Byte} (h : decode w = .reserved op) (s : State) :
    execWord w s = .next (raiseError .illegalCmd s) := by
  simp only [execWord, h]

/-- The OP value `n` is reserved, tried at DATA = 0x00. -/
def isReservedOp (n : Nat) : Bool := decode (wordOf (BitVec.ofNat 8 n) 0x00#8) == .reserved (BitVec.ofNat 8 n)

/-- Two reserved values below 0E, and the 242 from 0E on. -/
theorem reservedOps_length : ((List.range 256).filter isReservedOp).length = 244 := by
  have hlow : (List.range 14).filter isReservedOp = [6, 7] := by decide
  have hhigh : ∀ n ∈ (List.range 242).map (14 + ·), isReservedOp n = true := by
    intro n hn
    obtain ⟨m, hm, rfl⟩ := List.mem_map.mp hn
    rw [List.mem_range] at hm
    rw [isReservedOp, beq_iff_eq, decode_reserved_iff_toNat, BitVec.toNat_ofNat]
    omega
  rw [show 256 = 14 + 242 from rfl, List.range_add, List.filter_append, hlow, List.filter_eq_self.mpr hhigh,
    List.length_append, List.length_map, List.length_range]
  rfl

/-- Settles O3: an OP is reserved when no command has it, and a reserved word takes the error action and nothing else. -/
theorem reservedOpcodesRaiseIllegalCmd : Obligations.ReservedOpcodesRaiseIllegalCmd := by
  refine ⟨fun op d => ?_, reservedOps_length, fun op d s h => execWord_reserved h s⟩
  rw [decode_reserved_iff_toNat]
  simp only [← BitVec.toNat_inj, BitVec.toNat_ofNat]
  omega

/-! ### DATA is the operand or has no effect (R37, R41) -/

theorem payWrCommand_op (k : Fin 6) (d : Byte) : (payWrCommand k d).op = BitVec.ofNat 8 (0x08 + k.val) := by
  fin_cases k <;> rfl

theorem payWrCommand_operandOf (k : Fin 6) (d : Byte) : (payWrCommand k d).operandOf = some d := by
  fin_cases k <;> rfl

theorem decode_payWr (k : Fin 6) (d : Byte) : decode (wordOf (BitVec.ofNat 8 (0x08 + k.val)) d) = .command (payWrCommand k d) := by
  rw [← payWrCommand_op k d]
  exact decode_wordOf_op _ fun b hb => by simpa [payWrCommand_operandOf] using hb.symm

theorem execWord_congr {w w' : CmdWord} (h : decode w = decode w') (s : State) : execWord w s = execWord w' s := by
  simp only [execWord, h]

/-- DATA has no effect on a command without an operand (R41). -/
theorem decode_wordOf_of_operandOf_none {i : Instr} (h : i.operandOf = none) (d d' : Byte) :
    decode (wordOf i.op d) = decode (wordOf i.op d') := by
  rw [decode_wordOf_op i (by simp [h]), decode_wordOf_op i (by simp [h])]

/-- Settles O5: commands and reserved words are told apart by OP alone; DATA is the operand or is not looked at. -/
theorem dataReadAsIsOrIgnored : Obligations.DataReadAsIsOrIgnored := by
  refine ⟨fun op d d' => decode_wordOf_command_iff.trans decode_wordOf_command_iff.symm,
    fun d => ⟨decode_wordOf_op (.crcFeed d) (by simp [Instr.operandOf]), decode_wordOf_op (.frmPush d) (by simp [Instr.operandOf]),
      fun k => decode_payWr k d⟩, fun op d d' s h => execWord_congr ?_ s, by decide, by decide⟩
  rcases h with rfl | rfl | rfl | rfl | h
  · exact decode_wordOf_of_operandOf_none (i := .nop) rfl d d'
  · exact decode_wordOf_of_operandOf_none (i := .crcInit) rfl d d'
  · exact decode_wordOf_of_operandOf_none (i := .frmStart) rfl d d'
  · exact decode_wordOf_of_operandOf_none (i := .errClr) rfl d d'
  · rw [h, decode_wordOf_reserved_iff.mpr (decode_wordOf_reserved_iff.mp h)]

/-! ### The pseudo-instructions, line by line (R44) -/

/-- Lines are assembled when all pass the checks. -/
theorem mapM_assemble (ls : List AsmLine) :
    ls.mapM assemble = if ls.all AsmLine.wellFormed then some (ls.map lineWords) else none := by
  induction ls with
  | nil => rfl
  | cons l ls ih =>
    rw [List.mapM_cons, ih, assemble, List.all_cons]
    cases l.wellFormed <;> cases ls.all AsmLine.wellFormed <;> rfl

/-- A line stands for others when it passes the checks they pass and has their words, in order. -/
theorem assemble_eq_of_expansion {l : AsmLine} {ls : List AsmLine} (hwf : l.wellFormed = ls.all AsmLine.wellFormed)
    (hwords : lineWords l = (ls.map lineWords).flatten) : assemble l = (ls.mapM assemble).map List.flatten := by
  rw [mapM_assemble, assemble, hwf, hwords]
  split <;> rfl

/-- The words of lines with one word each are those words. -/
theorem flatten_map_lineWords {α : Type} {f : α → AsmLine} {g : α → CmdWord} (h : ∀ a, lineWords (f a) = [g a]) (as : List α) :
    ((as.map f).map lineWords).flatten = as.map g := by
  induction as with
  | nil => rfl
  | cons a as ih => simp only [List.map_cons, List.flatten_cons, h, ih, List.singleton_append]

theorem assemble_crcCalc (bs : List Nat) :
    assemble (.crcCalc bs) = ((AsmLine.crcInit :: bs.map .crcFeed).mapM assemble).map List.flatten := by
  apply assemble_eq_of_expansion
  · simp [AsmLine.wellFormed, Function.comp_def]
  · rw [List.map_cons, List.flatten_cons, flatten_map_lineWords (fun _ => rfl)]
    rfl

theorem assemble_payLoad (b0 b1 b2 b3 b4 b5 : Nat) : assemble (.payLoad [b0, b1, b2, b3, b4, b5]) =
    ([AsmLine.payWr 0 b0, .payWr 1 b1, .payWr 2 b2, .payWr 3 b3, .payWr 4 b4, .payWr 5 b5].mapM assemble).map List.flatten := by
  apply assemble_eq_of_expansion
  · simp [AsmLine.wellFormed]
  · rfl

theorem assemble_frmLoad (bs : List Nat) : assemble (.frmLoad bs) =
    if bs.length = 7 then ((AsmLine.frmStart :: bs.map .frmPush).mapM assemble).map List.flatten else none := by
  split
  · rename_i hlen
    apply assemble_eq_of_expansion
    · simp [AsmLine.wellFormed, Function.comp_def, hlen]
    · rw [List.map_cons, List.flatten_cons, flatten_map_lineWords (fun _ => rfl)]
      rfl
  · rename_i hlen
    simp [assemble, AsmLine.wellFormed, hlen]

/-- An edge that presents a command word executes it (R13). -/
theorem clockEdge_ofWord (w : CmdWord) (s : State) : clockEdge (.ofWord w) s = execWord w s := rfl

/-- CRC.INIT alone, with no frame active (R46). -/
theorem runEdges_crcInit {s : State} (h : s.fst ≠ .active) :
    runEdges (edgesOf [0x0100#16]) s = .next { s with crc := 0xFF#8, edges := [] } := by
  refine runEdges_cons (t := { s with crc := 0xFF#8, edges := [] }) ?_
  rw [clockEdge_ofWord, execWord_command (i := .crcInit) (by decide), exec_eq_effectOf, effectOf, if_neg h]
  rfl

/-- Settles O7: each pseudo-instruction passes the checks of its lines and has their words; the rest is CRC.INIT. -/
theorem pseudoInstructionExpansions : Obligations.PseudoInstructionExpansions :=
  ⟨assemble_crcCalc, assemble_payLoad, assemble_frmLoad, rfl, fun _ => runEdges_crcInit⟩

end Sys2Proof.Machine

/-! PROOFS. Family 40_crc: the byte update against the source's loop and table (R45, O12), CRC.INIT and CRC.FEED (R46, R47, O13, O14), and the
checksum by a sequence of commands (R48, O15). -/

namespace Sys2Proof.Machine

open Sys2Proof Sys2Proof.Safety

/-! ### The byte update is the source's loop (R45) -/

/-- One iteration as the source writes it: bit 7 tested, the shift truncated by a mask (R45). -/
def sourceIteration (v : Byte) : Byte :=
  if v.getLsbD 7 = true then ((v <<< 1) &&& 0xFF#8) ^^^ 0x31#8 else (v <<< 1) &&& 0xFF#8

/-- The mask 0xFF keeps all of a byte, and bit 7 is its highest. -/
theorem crc8Shift_eq_sourceIteration (v : Byte) : crc8Shift v = sourceIteration v := by
  have hmask : (v <<< 1) &&& 0xFF#8 = v <<< 1 := BitVec.and_allOnes
  rw [sourceIteration, hmask]
  rfl

theorem crc8Shifts_eq_iterate (n : Nat) (v : Byte) : crc8Shifts n v = sourceIteration^[n] v := by
  induction n generalizing v with
  | zero => rfl
  | succ n ih => rw [crc8Shifts, ih, crc8Shift_eq_sourceIteration, Function.iterate_succ_apply]

theorem crc8Update_eq_iterate (r d : Byte) : crc8Update r d = sourceIteration^[8] (r ^^^ d) := by
  rw [crc8Update_eq, crc8Shifts_eq_iterate]

theorem crc8Update_zero_left (x : Byte) : crc8Update 0x00#8 x = crc8Shifts 8 x := by
  rw [crc8Update_eq, BitVec.zero_xor]

theorem crc8Update_self (r : Byte) : crc8Update r r = 0x00#8 := by
  rw [crc8Update_eq, BitVec.xor_self]
  rfl

/-- The table V-T, entry by entry. -/
theorem updateTable_getElem? : ∀ x : Byte, updateTable[x.toNat]? = some (crc8Shifts 8 x) := by decide

/-- The check value of CRC-8/NRSC-5 over the characters 1 to 9, iteration by iteration. -/
theorem computeChecksum_check :
    computeChecksum [0x31#8, 0x32#8, 0x33#8, 0x34#8, 0x35#8, 0x36#8, 0x37#8, 0x38#8, 0x39#8] = 0xF7#8 := by
  simp [computeChecksum, Config.crcInit, crc8Update_eq, crc8Shifts, crc8Shift, BitVec.msb_eq_decide, Config.crcPoly]

/-- Settles O12: each iteration is the source's, the update starts from r ^ d, and the iterations are linear; the table is compared entry by
entry. -/
theorem crcUpdateMatchesSource : Obligations.CrcUpdateMatchesSource := by
  refine ⟨crc8Update_eq_iterate, fun r d => ?_, fun x => ?_, fun a b => ?_, crc8Update_self 0x00#8, computeChecksum_check⟩
  · rw [crc8Update_zero_left, crc8Update_eq]
  · rw [crc8Update_zero_left, updateTable_getElem?]
  · simp only [crc8Update_zero_left, crc8Shifts_xor]

/-! ### CRC.INIT and CRC.FEED (R46, R47) -/

/-- In ACTIVE the commands that would disturb the frame take the error action and do nothing else (R72). -/
theorem exec_conflict {i : Instr} {s : State} (hi : conflictsWithFrame i = true) (ha : s.fst = .active) :
    exec i s = .next (raiseError .frameConflict s) := by
  rw [exec_eq_effectOf]
  cases i with
  | nop | frmStart | frmPush | errClr => simp [conflictsWithFrame] at hi
  | _ => rw [effectOf, if_pos ha]

theorem exec_crcInit {s : State} (h : s.fst ≠ .active) : exec .crcInit s = .next (setCrc 0xFF#8 s) := by
  rw [exec_eq_effectOf, effectOf, if_neg h]
  rfl

theorem exec_crcFeed {s : State} (h : s.fst ≠ .active) (b : Byte) :
    exec (.crcFeed b) s = .next (setCrc (crc8Update s.crc b) s) := by
  rw [exec_eq_effectOf, effectOf, if_neg h]

/-- Settles O13: OP 0x01 is CRC.INIT whatever DATA, and the guard against an active frame decides its effect. -/
theorem crcInitResult : Obligations.CrcInitResult := fun _ =>
  ⟨fun _ => decode_wordOf_op .crcInit (by simp [Instr.operandOf]), exec_crcInit, exec_conflict rfl⟩

/-- Settles O14: OP 0x02 is CRC.FEED of DATA, and the guard against an active frame decides its effect. -/
theorem crcFeedResult : Obligations.CrcFeedResult :=
  ⟨fun _ b => ⟨decode_wordOf_op (.crcFeed b) (by simp [Instr.operandOf]), fun h => exec_crcFeed h b, exec_conflict rfl⟩,
    crc8Update_self, by decide, by decide, by decide⟩

/-! ### Edges that change nothing, and edges that accept a command -/

theorem isQuiet_iff (e : Edge) :
    isQuiet e = true ↔ e.rst = false ∧ (e.cmdValid = false ∨ decode e.cmd = .command .nop) := by
  simp [isQuiet]

theorem clockEdge_quiet {e : Edge} (h : isQuiet e = true) (s : State) : clockEdge e s = .next s := by
  obtain ⟨hrst, hvalid | hnop⟩ := (isQuiet_iff e).mp h
  · simp [clockEdge, hrst, hvalid]
  · have hword : execWord e.cmd s = .next s := execWord_command hnop s
    simp [clockEdge, hrst, hword]

theorem accepts_of_acceptedCommand {e : Edge} {i : Instr} (h : acceptedCommand e = some i) : Accepts e i := by
  unfold acceptedCommand at h
  split at h
  · cases h
  · rename_i hrst
    split at h
    · rename_i hvalid
      split at h <;> cases h
      exact ⟨by simpa using hrst, hvalid, ‹_›⟩
    · cases h

theorem clockEdge_accepts {e : Edge} {i : Instr} (h : Accepts e i) (s : State) : clockEdge e s = exec i s := by
  obtain ⟨hrst, hvalid, hdecode⟩ := h
  simp [clockEdge, hrst, hvalid, execWord_command hdecode]

/-! ### The host's coming edges play no part in what an edge does -/

theorem takeFrameByte_with_edges (b : Byte) (s : State) (es : List Edge) :
    takeFrameByte b { s with edges := es } = { takeFrameByte b s with edges := es } := by
  unfold takeFrameByte
  dsimp only
  split <;> rfl

theorem effectOf_with_edges (i : Instr) (s : State) (es : List Edge) :
    effectOf i { s with edges := es } = { effectOf i s with edges := es } := by
  by_cases ha : s.fst = .active
  · cases i with
    | frmPush b => simpa only [effectOf, if_pos ha] using takeFrameByte_with_edges b s es
    | _ => simp only [effectOf, if_pos ha] <;> rfl
  · cases i <;> simp only [effectOf, if_neg ha] <;> rfl

theorem execWord_with_edges {w : CmdWord} {s t : State} (es : List Edge) (h : execWord w s = .next t) :
    execWord w { s with edges := es } = .next { t with edges := es } := by
  cases hd : decode w with
  | command i =>
    rw [execWord_command hd, exec_eq_effectOf] at h ⊢
    rw [effectOf_with_edges]
    cases h
    rfl
  | reserved op =>
    rw [execWord_reserved hd] at h ⊢
    cases h
    rfl

theorem clockEdge_with_edges {e : Edge} {s t : State} (es : List Edge) (h : clockEdge e s = .next t) :
    clockEdge e { s with edges := es } = .next { t with edges := es } := by
  unfold clockEdge at h ⊢
  split_ifs at h ⊢
  · cases h; rfl
  · exact execWord_with_edges es h
  · cases h; rfl

/-- A run goes on from what its first edge answers, whatever edges stand in the state it starts from. -/
theorem runEdges_cons_of_clockEdge {e : Edge} {s t : State} (es : List Edge) (h : clockEdge e s = .next t) :
    runEdges (e :: es) s = runEdges es t :=
  (runEdges_cons (clockEdge_with_edges es h)).trans rfl

/-! ### The checksum by a sequence of commands (R48) -/

/-- Edges with `cmd_valid = 0` and NOPs do not change the result of a run (R48). -/
theorem runEdges_filter_not_quiet (es : List Edge) (s : State) :
    runEdges (es.filter (fun e => !isQuiet e)) s = runEdges es s := by
  induction es generalizing s with
  | nil => rfl
  | cons e es ih =>
    cases hq : isQuiet e with
    | true => rw [List.filter_cons_of_neg (by simp [hq]), ih, runEdges_cons_of_clockEdge es (clockEdge_quiet hq s)]
    | false =>
      obtain ⟨t, ht⟩ := clockEdge_answers e s
      rw [List.filter_cons_of_pos (by simp [hq]), runEdges_cons_of_clockEdge _ ht, runEdges_cons_of_clockEdge _ ht, ih]

/-- A run over edges that feed the bytes, one an edge, folds the byte update over them. -/
theorem runEdges_crcFeeds {es : List Edge} {bs : List Byte} {s : State} (hs : s.fst ≠ .active)
    (h : es.map acceptedCommand = bs.map (fun b => some (.crcFeed b))) :
    runEdges es s = .next { s with crc := bs.foldl crc8Update s.crc, edges := [] } := by
  induction bs generalizing es s with
  | nil =>
    obtain rfl := List.map_eq_nil_iff.mp h
    rfl
  | cons b bs ih =>
    obtain ⟨e, es, rfl, he, hes⟩ := List.map_eq_cons_iff.mp h
    have hfeed : clockEdge e s = .next (setCrc (crc8Update s.crc b) s) :=
      (clockEdge_accepts (accepts_of_acceptedCommand he) s).trans (exec_crcFeed hs b)
    rw [runEdges_cons_of_clockEdge es hfeed, ih (by simpa using hs) hes]
    rfl

/-- Settles O15: without its quiet edges the run is CRC.INIT and then one CRC.FEED for each byte. -/
theorem checksumByCommandSequence : Obligations.ChecksumByCommandSequence := by
  refine fun s es bs hs h => ⟨?_, rfl⟩
  rw [← runEdges_filter_not_quiet]
  obtain ⟨e, feeds, hes, he, hfeeds⟩ := List.map_eq_cons_iff.mp h
  have hinit : clockEdge e s = .next (setCrc 0xFF#8 s) :=
    (clockEdge_accepts (accepts_of_acceptedCommand he) s).trans (exec_crcInit hs)
  rw [hes, runEdges_cons_of_clockEdge feeds hinit, runEdges_crcFeeds (by simpa using hs) hfeeds]
  rfl

end Sys2Proof.Machine

/-! PROOFS. Family 41_unpack: PAY.WR and runs of it (R50, O19), the raw fields as the source's formulas (R51, R52, O20), and the exact
scaling (R53, R54, O22, O23). -/

namespace Sys2Proof.Machine

open Sys2Proof Sys2Proof.Safety

/-! ### PAY.WR (R50) -/

theorem exec_payWr {s : State} (h : s.fst ≠ .active) (k : Fin 6) (b : Byte) :
    exec (payWrCommand k b) s = .next (writePayloadDirect k b s) := by
  rw [exec_eq_effectOf]
  fin_cases k <;> exact congrArg _ (if_neg h)

theorem payWrCommand_conflictsWithFrame (k : Fin 6) (b : Byte) : conflictsWithFrame (payWrCommand k b) = true := by
  fin_cases k <;> rfl

/-- Settles O19: OP 0x08 + i is PAY.WR i, and the guard against an active frame decides its effect. -/
theorem payWrResult : Obligations.PayWrResult := fun _ b =>
  ⟨fun h => ⟨exec_payWr h 0 b, exec_payWr h 1 b, exec_payWr h 2 b, exec_payWr h 3 b, exec_payWr h 4 b, exec_payWr h 5 b⟩,
    fun ha k => exec_conflict (payWrCommand_conflictsWithFrame k b) ha, fun k => decode_payWr k b,
    (decode_reserved_iff_toNat _ b).mpr (by decide), (decode_reserved_iff_toNat _ b).mpr (by decide)⟩

/-! ### Runs of PAY.WR, and PAY.LOAD (R44, R50) -/

theorem encode_payWr (k : Fin 6) (b : Byte) : encode (payWrCommand k b) = wordOf (BitVec.ofNat 8 (0x08 + k.val)) b := by
  rw [encode, payWrCommand_op, payWrCommand_operandOf, Option.getD_some]

theorem clockEdge_payWr {s : State} (h : s.fst ≠ .active) (k : Fin 6) (b : Byte) :
    clockEdge (.ofWord (encode (payWrCommand k b))) s = .next (writePayloadDirect k b s) := by
  rw [clockEdge_ofWord, encode_payWr, execWord_command (decode_payWr k b), exec_payWr h]

/-- Each write leaves the frame state IDLE, so the next one is not turned away. -/
theorem runEdges_payWrs (ws : List (Fin 6 × Byte)) {s : State} (h : s.fst ≠ .active) :
    runEdges (edgesOf (ws.map fun w => encode (payWrCommand w.1 w.2))) s =
      .next { ws.foldl (fun s w => writePayloadDirect w.1 w.2 s) s with edges := [] } := by
  induction ws generalizing s with
  | nil => rfl
  | cons w ws ih => exact (runEdges_cons_of_clockEdge _ (clockEdge_payWr h w.1 w.2)).trans (ih (by simp))

/-- The six words of PAY.LOAD, with no frame active. -/
theorem runEdges_payLoad {s : State} (h : s.fst ≠ .active) (b0 b1 b2 b3 b4 b5 : Byte) :
    runEdges (edgesOf [encode (.payWr0 b0), encode (.payWr1 b1), encode (.payWr2 b2), encode (.payWr3 b3), encode (.payWr4 b4),
      encode (.payWr5 b5)]) s =
      .next { s with payload := ⟨b0, b1, b2, b3, b4, b5⟩, fst := .idle, idx := 0#3, matched := false, edges := [] } :=
  runEdges_payWrs [(0, b0), (1, b1), (2, b2), (3, b3), (4, b4), (5, b5)] h

theorem payWrWord_toNat (k : Fin 6) (b : Byte) : payWrWord k.val b.toNat = encode (payWrCommand k b) := by
  rw [encode_payWr, payWrWord, dataByte, BitVec.ofNat_toNat, BitVec.setWidth_eq]

/-- PAY.LOAD of a payload's bytes is the six PAY.WR words (R44). -/
theorem assemble_payLoad_bytes (p : Payload) : assemble (.payLoad (p.bytes.map BitVec.toNat)) =
    some [encode (.payWr0 p.p0), encode (.payWr1 p.p1), encode (.payWr2 p.p2), encode (.payWr3 p.p3), encode (.payWr4 p.p4),
      encode (.payWr5 p.p5)] := by
  have hwf : (AsmLine.payLoad (p.bytes.map BitVec.toNat)).wellFormed = true := by
    simp [AsmLine.wellFormed, Laws.EncodedRow.operand_isByte]
  have hwords : lineWords (.payLoad (p.bytes.map BitVec.toNat)) =
      (List.finRange 6).map fun k => payWrWord k.val (p.read k).toNat := rfl
  rw [assemble, if_pos hwf, hwords]
  simp only [payWrWord_toNat]
  rfl

/-! ### The raw fields as the source's formulas (R51, R52) -/

/-- Parts side by side, at any width: the high part shifted past the low one. -/
theorem setWidth_append_eq_or {u v : Nat} (n : Nat) (hi : BitVec u) (lo : BitVec v) :
    (hi ++ lo).setWidth n = hi.setWidth n <<< v ||| lo.setWidth n := by
  ext i hin
  by_cases hlo : i < v
  · simp [BitVec.getLsbD_append, hlo]
  · simp [BitVec.getLsbD_append, hlo, BitVec.getLsbD_of_ge lo i (by omega)]

theorem toNat_append_eq_add {u v : Nat} (hi : BitVec u) (lo : BitVec v) :
    (hi ++ lo).toNat = hi.toNat * 2 ^ v + lo.toNat := by
  rw [BitVec.toNat_append, ← Nat.shiftLeft_add_eq_or_of_lt lo.isLt, Nat.shiftLeft_eq]

/-- Three parts side by side fill a raw field as the source's shifts put them. -/
theorem setWidth_append_append_eq_or {u v w : Nat} (n : Nat) (hi : BitVec u) (mid : BitVec v) (lo : BitVec w) :
    (hi ++ mid ++ lo).setWidth n = hi.setWidth n <<< (v + w) ||| mid.setWidth n <<< w ||| lo.setWidth n := by
  rw [setWidth_append_eq_or, setWidth_append_eq_or, BitVec.shiftLeft_or_distrib, BitVec.shiftLeft_add]

theorem highNibble_toNat (b : Byte) : (b.extractLsb' 4 4).toNat = b.toNat / 16 := by
  have := b.isLt
  rw [BitVec.extractLsb'_toNat, Nat.shiftRight_eq_div_pow]
  omega

theorem lowNibble_toNat (b : Byte) : (b.extractLsb' 0 4).toNat = b.toNat % 16 := by
  rw [BitVec.extractLsb'_toNat, Nat.shiftRight_zero]

theorem rawH_toNat (p : Payload) : (rawH p).toNat = p.p1.toNat * 4096 + p.p2.toNat * 16 + p.p3.toNat / 16 := by
  rw [rawH, toNat_append_eq_add, toNat_append_eq_add, highNibble_toNat]
  omega

theorem rawT_toNat (p : Payload) : (rawT p).toNat = p.p3.toNat % 16 * 65536 + p.p4.toNat * 256 + p.p5.toNat := by
  rw [rawT, toNat_append_eq_add, toNat_append_eq_add, lowNibble_toNat]
  omega

theorem setWidth_highNibble (b : Byte) : (b.extractLsb' 4 4).setWidth 20 = (b >>> 4).setWidth 20 := by
  apply BitVec.eq_of_toNat_eq
  rw [BitVec.toNat_setWidth, BitVec.toNat_setWidth, highNibble_toNat, BitVec.toNat_ushiftRight, Nat.shiftRight_eq_div_pow]

theorem setWidth_lowNibble (b : Byte) : (b.extractLsb' 0 4).setWidth 20 = (b &&& 0x0F#8).setWidth 20 := by
  have hmask : (b &&& 0x0F#8).toNat = b.toNat % 16 := Nat.and_two_pow_sub_one_eq_mod b.toNat 4
  apply BitVec.eq_of_toNat_eq
  rw [BitVec.toNat_setWidth, BitVec.toNat_setWidth, lowNibble_toNat, hmask]

theorem rawH_eq_extractHumidity (p : Payload) : rawH p = extractHumidity p := by
  have h := setWidth_append_append_eq_or 20 p.p1 p.p2 (p.p3.extractLsb' 4 4)
  rwa [setWidth_highNibble, BitVec.setWidth_eq] at h

theorem rawT_eq_extractTemperature (p : Payload) : rawT p = extractTemperature p := by
  have h := setWidth_append_append_eq_or 20 (p.p3.extractLsb' 0 4) p.p4 p.p5
  rwa [setWidth_lowNibble, BitVec.setWidth_eq] at h

/-! ### Every pair of raw fields has a payload (R51, R52) -/

/-- Three bit ranges side by side are the value they were read from. -/
theorem extractLsb'_append_three_eq_self {u v w : Nat} (x : BitVec (u + v + w)) :
    x.extractLsb' (v + w) u ++ x.extractLsb' w v ++ x.extractLsb' 0 w = x := by
  rw [BitVec.extractLsb'_append_extractLsb'_eq_extractLsb' (Nat.add_comm v w),
    BitVec.extractLsb'_append_extractLsb'_eq_extractLsb' (Nat.zero_add w).symm, BitVec.extractLsb'_eq_self]

/-- A payload that unpacks to these two fields; P[0], which the unpacker does not read, is 0. -/
def packFields (h t : RawField) : Payload where
  p0 := 0x00#8
  p1 := h.extractLsb' 12 8
  p2 := h.extractLsb' 4 8
  p3 := h.extractLsb' 0 4 ++ t.extractLsb' 16 4
  p4 := t.extractLsb' 8 8
  p5 := t.extractLsb' 0 8

@[simp] theorem rawH_packFields (h t : RawField) : rawH (packFields h t) = h := by
  have hnibble : (packFields h t).p3.extractLsb' 4 4 = h.extractLsb' 0 4 := BitVec.extractLsb'_append_eq_left
  rw [rawH, hnibble]
  exact extractLsb'_append_three_eq_self (u := 8) (v := 8) (w := 4) h

@[simp] theorem rawT_packFields (h t : RawField) : rawT (packFields h t) = t := by
  have hnibble : (packFields h t).p3.extractLsb' 0 4 = t.extractLsb' 16 4 := BitVec.extractLsb'_append_eq_right
  rw [rawT, hnibble]
  exact extractLsb'_append_three_eq_self (u := 4) (v := 8) (w := 8) t

/-- Settles O20: the fields are their parts side by side, which the source's shifts and ORs write; PAY.LOAD of the packed bytes reaches
any pair. -/
theorem rawFieldsFollowSource : Obligations.RawFieldsFollowSource := by
  refine ⟨fun s => ⟨rawH_toNat s.payload, rawT_toNat s.payload, rawH_eq_extractHumidity s.payload,
    rawT_eq_extractTemperature s.payload⟩, fun h t => ?_⟩
  exact ⟨_, _, _, assemble_payLoad_bytes (packFields h t), runEdges_payLoad (by decide) _ _ _ _ _ _,
    rawH_packFields h t, rawT_packFields h t⟩

/-! ### The scaled outputs (R53, R54) -/

/-- 25 bits hold every product. -/
theorem humFxOf_toNat (r : RawField) : (humFxOf r).toNat = r.toNat * 25 := by
  have := r.isLt
  rw [humFxOf, BitVec.toNat_ofNat, Config.scaleFactor]
  omega

theorem humPercent_humFxOf (r : RawField) : humPercent (humFxOf r) = scaleHumidity r := by
  rw [humPercent, humFxOf_toNat, scaleHumidity, Config.humFractionBits]
  push_cast
  ring

theorem humPercent_humFxOf_nonneg (r : RawField) : 0 ≤ humPercent (humFxOf r) := by
  rw [humPercent_humFxOf, scaleHumidity]
  positivity

theorem humPercent_humFxOf_lt (r : RawField) : humPercent (humFxOf r) < 100 := by
  have hr : (r.toNat : Rat) < 2 ^ 20 := by exact_mod_cast r.isLt
  rw [humPercent_humFxOf, scaleHumidity]
  linarith

/-- 26 bits of two's complement hold every difference. -/
theorem tempFxOf_toInt (r : RawField) : (tempFxOf r).toInt = (r.toNat : Int) * 25 - 6553600 := by
  have := r.isLt
  rw [tempFxOf, Config.scaleFactor, Config.tempOffset]
  apply BitVec.toInt_ofInt_eq_self (by decide) <;> omega

theorem tempCelsius_tempFxOf (r : RawField) : tempCelsius (tempFxOf r) = scaleTemperature r := by
  rw [tempCelsius, tempFxOf_toInt, scaleTemperature, Config.tempFractionBits]
  push_cast
  ring

/-- Settles O22: the product fits its bits, and its value is the source's; the examples are products. -/
theorem humidityScalingExact : Obligations.HumidityScalingExact := by
  refine ⟨fun s => ⟨humFxOf_toNat _, ?_, humPercent_humFxOf _, humPercent_humFxOf_nonneg _, humPercent_humFxOf_lt _⟩,
    by decide, by decide, by decide, ?_⟩
  · have hfx : s.out.humFx.toNat = (rawH s.payload).toNat * 25 := humFxOf_toNat _
    have := (rawH s.payload).isLt
    omega
  · rw [humPercent_humFxOf, scaleHumidity]
    norm_num

/-- Settles O23: the difference fits its bits as a signed number, and its value is the source's; bounds and sign follow from it. -/
theorem temperatureScalingExact : Obligations.TemperatureScalingExact := by
  refine ⟨fun s => ?_, by decide, by decide, by decide, by decide, ?_⟩
  · have hfx : s.out.tempFx.toInt = (s.out.rawT.toNat : Int) * 25 - 6553600 := tempFxOf_toInt _
    have := s.out.rawT.isLt
    exact ⟨hfx, by omega, by omega, tempCelsius_tempFxOf _, by omega⟩
  · rw [tempCelsius_tempFxOf, scaleTemperature]
    norm_num

end Sys2Proof.Machine

/-! PROOFS. Family 42_frame: FRM.START and FRM.PUSH (R58 to R61, O27, O28), and after a reset edge the registers say of the frame what R60 and
R62 say: they hold the last frame pushed (O30). -/

namespace Sys2Proof.Machine

open Sys2Proof Sys2Proof.Safety

/-! ### FRM.START and FRM.PUSH (R58, R59, R61) -/

theorem exec_frmStart (s : State) : exec .frmStart s = .next (startFrame s) := rfl

theorem takeFrameByte_payload {s : State} {k : Fin 6} (hk : s.idx.toNat = k.val) (b : Byte) :
    takeFrameByte b s = takePayloadByte k b s := by
  simp only [takeFrameByte, payloadIndex_of_eq hk]

theorem takeFrameByte_checksum {s : State} (h : 6 ≤ s.idx.toNat) (b : Byte) : takeFrameByte b s = takeChecksumByte b s := by
  rcases takeFrameByte_cases b s with ⟨k, hk, -⟩ | ⟨-, htake⟩
  · have := k.isLt
    omega
  · exact htake

theorem exec_frmPush_active {s : State} (ha : s.fst = .active) (b : Byte) : exec (.frmPush b) s = .next (takeFrameByte b s) := by
  rw [exec_eq_effectOf, effectOf, if_pos ha]

theorem exec_frmPush_payload {s : State} {k : Fin 6} (ha : s.fst = .active) (hk : s.idx.toNat = k.val) (b : Byte) :
    exec (.frmPush b) s = .next (takePayloadByte k b s) := by
  rw [exec_frmPush_active ha, takeFrameByte_payload hk]

theorem exec_frmPush_checksum {s : State} (ha : s.fst = .active) (h : 6 ≤ s.idx.toNat) (b : Byte) :
    exec (.frmPush b) s = .next (takeChecksumByte b s) := by
  rw [exec_frmPush_active ha, takeFrameByte_checksum h]

theorem exec_frmPush_not_active {s : State} (h : s.fst ≠ .active) (b : Byte) :
    exec (.frmPush b) s = .next (raiseError .frameSeq s) := by
  rw [exec_eq_effectOf, effectOf, if_neg h]

/-- Settles O27: OP 0x03 is FRM.START whatever DATA, and it has no guard. -/
theorem frmStartResult : Obligations.FrmStartResult := fun s =>
  ⟨fun _ => decode_wordOf_op .frmStart (by simp [Instr.operandOf]), exec_frmStart s⟩

/-- Settles O28: OP 0x04 is FRM.PUSH of DATA; in ACTIVE, IDX decides between the payload byte and the checksum byte. -/
theorem frmPushResult : Obligations.FrmPushResult := by
  refine fun s b => ⟨decode_wordOf_op (.frmPush b) (by simp [Instr.operandOf]), fun k ha hk => ?_, fun ha hidx => ?_,
    fun h => exec_frmPush_not_active h b⟩
  · exact ⟨s.payload.write k b, exec_frmPush_payload ha hk b, fun j => read_write s.payload j k b⟩
  · exact exec_frmPush_checksum ha (by simp [hidx]) b

/-! ### The bytes received so far (R18, R59) -/

/-- IDX counts a payload byte without wrapping. -/
theorem idx_succ_toNat {idx : BitVec 3} {k : Fin 6} (hk : idx.toNat = k.val) : (idx + 1#3).toNat = k.val + 1 := by
  have := k.isLt
  rw [BitVec.toNat_add, BitVec.toNat_ofNat]
  omega

/-- A payload byte is added behind the bytes received before it. -/
theorem takePayloadByte_received {s : State} {k : Fin 6} (hk : s.idx.toNat = k.val) (b : Byte) :
    (takePayloadByte k b s).payload.bytes.take (takePayloadByte k b s).idx.toNat = s.payload.bytes.take s.idx.toNat ++ [b] := by
  rw [takePayloadByte_payload, takePayloadByte_idx, idx_succ_toNat hk, write_bytes_take, hk]

/-- At the checksum byte all six payload bytes have been received. -/
theorem received_eq_bytes {s : State} (h : 6 ≤ s.idx.toNat) : s.payload.bytes.take s.idx.toNat = s.payload.bytes :=
  List.take_of_length_le h

/-! ### What the registers say of the frame, under each register update (R60, R62) -/

theorem frameInv_with_edges {s : State} (es : List Edge) (h : FrameInv s) : FrameInv { s with edges := es } := { h with }

/-- In IDLE nothing is said of a frame. -/
theorem frameInv_of_idle {s : State} (h : s.fst = .idle) : FrameInv s where
  active_crc ha := by simp [h] at ha
  done_matched hd := by simp [h] at hd

/-- Outside ACTIVE, CRC is free of the frame. -/
theorem frameInv_setCrc {s : State} (v : Byte) (hs : s.fst ≠ .active) (h : FrameInv s) : FrameInv (setCrc v s) where
  active_crc ha := absurd ha hs
  done_matched := h.done_matched

theorem frameInv_startFrame (s : State) : FrameInv (startFrame s) where
  active_crc _ := rfl
  done_matched hd := by simp at hd

theorem frameInv_takePayloadByte {s : State} {k : Fin 6} (b : Byte) (ha : s.fst = .active) (hk : s.idx.toNat = k.val)
    (h : FrameInv s) : FrameInv (takePayloadByte k b s) where
  active_crc _ := by rw [takePayloadByte_received hk, computeChecksum_snoc, ← h.active_crc ha, takePayloadByte_crc]
  done_matched hd := by simp [ha] at hd

theorem checksumMatches_iff (crc b : Byte) : checksumMatches crc b = true ↔ b = crc := by
  rw [checksumMatches, beq_iff_eq, eq_comm]

theorem frameInv_takeChecksumByte {s : State} (b : Byte) (ha : s.fst = .active) (hidx : 6 ≤ s.idx.toNat) (h : FrameInv s) :
    FrameInv (takeChecksumByte b s) where
  active_crc hc := by simp at hc
  done_matched _ := by
    have hcrc := h.active_crc ha
    rw [received_eq_bytes hidx] at hcrc
    rw [takeChecksumByte_matched, takeChecksumByte_chk, takeChecksumByte_payload, ← hcrc]
    exact checksumMatches_iff s.crc b

theorem exec_keeps_frameInv {i : Instr} {s t : State} (h : FrameInv s) (he : exec i s = .next t) : FrameInv t := by
  rcases exec_next_cases he with ⟨-, rfl⟩ | ⟨-, rfl⟩ | ⟨-, rfl⟩ | ⟨-, -, rfl⟩ | ⟨-, hs, rfl⟩ | ⟨b, -, hs, rfl⟩ |
    ⟨k, b, -, -, rfl⟩ | ⟨b, -, -, rfl⟩ | ⟨b, k, -, ha, hk, rfl⟩ | ⟨b, -, ha, hidx, rfl⟩
  · exact h
  · exact { h with }
  · exact frameInv_startFrame s
  · exact { h with }
  · exact frameInv_setCrc _ hs h
  · exact frameInv_setCrc _ hs h
  · exact frameInv_of_idle rfl
  · exact { h with }
  · exact frameInv_takePayloadByte b ha hk h
  · exact frameInv_takeChecksumByte b ha hidx h

theorem clockEdge_keeps_frameInv {e : Edge} {s t : State} (h : FrameInv s) (he : clockEdge e s = .next t) : FrameInv t := by
  rcases clockEdge_next_cases he with ⟨-, rfl⟩ | ⟨-, -, rfl⟩ | ⟨-, rfl⟩ | ⟨i, -, hi⟩
  · exact frameInv_of_idle rfl
  · exact h
  · exact { h with }
  · exact exec_keeps_frameInv h hi

theorem frameInv_of_run_after_reset {es : List Edge} {s t : State} (h : runEdges (resetEdge :: es) s = .next t) :
    FrameInv t := by
  rw [runEdges_resetEdge] at h
  have hreset : FrameInv State.reset := frameInv_of_idle rfl
  exact runEdges_induction (fun _ => frameInv_with_edges) (fun _ _ _ => clockEdge_keeps_frameInv) hreset h

/-! ### The frame tracked from the edges (R57, R61) -/

theorem acceptedCommand_of_accepts {e : Edge} {i : Instr} (h : Accepts e i) : acceptedCommand e = some i := by
  obtain ⟨hrst, hvalid, hdecode⟩ := h
  simp [acceptedCommand, hrst, hvalid, hdecode]

theorem acceptedCommand_of_reserved {e : Edge} (h : PresentsReserved e) : acceptedCommand e = none := by
  obtain ⟨hrst, hvalid, op, hdecode⟩ := h
  simp [acceptedCommand, hrst, hvalid, hdecode]

/-- What a command does to the tracked frame. -/
def trackCommand (frame : List Byte) : Instr → List Byte
  | .frmStart => []
  | .frmPush b => if frame.length < Config.frameLength then frame ++ [b] else frame
  | _ => frame

theorem trackFrame_accepts {e : Edge} {i : Instr} (h : Accepts e i) (frame : List Byte) :
    trackFrame frame e = trackCommand frame i := by
  have hrst : e.rst = false := h.1
  rw [trackFrame, acceptedCommand_of_accepts h, hrst]
  cases i <;> rfl

theorem trackFrame_of_no_command {e : Edge} (hrst : e.rst = false) (h : acceptedCommand e = none) (frame : List Byte) :
    trackFrame frame e = frame := by
  simp [trackFrame, hrst, h]

theorem trackCommand_of_conflicts {i : Instr} (h : conflictsWithFrame i = true) (frame : List Byte) :
    trackCommand frame i = frame := by
  cases i with
  | frmStart | frmPush => simp [conflictsWithFrame] at h
  | _ => rfl

theorem trackCommand_frmPush {frame : List Byte} (h : frame.length < 7) (b : Byte) :
    trackCommand frame (.frmPush b) = frame ++ [b] := if_pos h

/-! ### The registers hold the tracked frame, under each register update (R18, R59, R62) -/

theorem holdsFrame_with_edges {frame : List Byte} {s : State} (es : List Edge) (h : HoldsFrame frame s) :
    HoldsFrame frame { s with edges := es } := { h with }

theorem holdsFrame_of_idle {s : State} (h : s.fst = .idle) (frame : List Byte) : HoldsFrame frame s where
  active_bytes ha := by simp [h] at ha
  done_bytes hd := by simp [h] at hd

theorem holdsFrame_startFrame (s : State) : HoldsFrame [] (startFrame s) where
  active_bytes _ := ⟨rfl, rfl⟩
  done_bytes hd := by simp at hd

/-- A byte pushed outside ACTIVE is no byte of a frame: in DONE the frame has its seven already (R61). -/
theorem holdsFrame_frmPush_not_active {frame : List Byte} {s : State} (b : Byte) (hs : s.fst ≠ .active) (h : HoldsFrame frame s) :
    HoldsFrame (trackCommand frame (.frmPush b)) (raiseError .frameSeq s) where
  active_bytes ha := absurd ha hs
  done_bytes hd := by
    have hframe := h.done_bytes hd
    have hfull : ¬ frame.length < Config.frameLength := by simp [hframe, Config.frameLength]
    rw [trackCommand, if_neg hfull, hframe]
    rfl

theorem holdsFrame_takePayloadByte {frame : List Byte} {s : State} {k : Fin 6} (b : Byte) (ha : s.fst = .active)
    (hk : s.idx.toNat = k.val) (h : HoldsFrame frame s) :
    HoldsFrame (trackCommand frame (.frmPush b)) (takePayloadByte k b s) := by
  obtain ⟨hlen, hbytes⟩ := h.active_bytes ha
  rw [trackCommand_frmPush (by omega)]
  refine ⟨fun _ => ⟨?_, ?_⟩, fun hd => by simp [ha] at hd⟩
  · rw [List.length_append, takePayloadByte_idx, idx_succ_toNat hk, hlen, hk, List.length_singleton]
  · rw [takePayloadByte_received hk, hbytes]

theorem holdsFrame_takeChecksumByte {frame : List Byte} {s : State} (b : Byte) (ha : s.fst = .active) (hidx : 6 ≤ s.idx.toNat)
    (h : HoldsFrame frame s) : HoldsFrame (trackCommand frame (.frmPush b)) (takeChecksumByte b s) := by
  obtain ⟨-, hbytes⟩ := h.active_bytes ha
  rw [received_eq_bytes hidx] at hbytes
  rw [← hbytes, trackCommand_frmPush (by simp)]
  exact ⟨fun hc => by simp at hc, fun _ => rfl⟩

theorem exec_keeps_holdsFrame {i : Instr} {frame : List Byte} {s t : State} (h : HoldsFrame frame s) (he : exec i s = .next t) :
    HoldsFrame (trackCommand frame i) t := by
  rcases exec_next_cases he with ⟨rfl, rfl⟩ | ⟨rfl, rfl⟩ | ⟨rfl, rfl⟩ | ⟨hi, -, rfl⟩ | ⟨rfl, -, rfl⟩ | ⟨b, rfl, -, rfl⟩ |
    ⟨k, b, rfl, -, rfl⟩ | ⟨b, rfl, hs, rfl⟩ | ⟨b, k, rfl, ha, hk, rfl⟩ | ⟨b, rfl, ha, hidx, rfl⟩
  · exact h
  · exact { h with }
  · exact holdsFrame_startFrame s
  · rw [trackCommand_of_conflicts hi]
    exact { h with }
  · exact { h with }
  · exact { h with }
  · exact holdsFrame_of_idle rfl _
  · exact holdsFrame_frmPush_not_active b hs h
  · exact holdsFrame_takePayloadByte b ha hk h
  · exact holdsFrame_takeChecksumByte b ha hidx h

theorem clockEdge_keeps_holdsFrame {e : Edge} {frame : List Byte} {s t : State} (h : HoldsFrame frame s)
    (he : clockEdge e s = .next t) : HoldsFrame (trackFrame frame e) t := by
  rcases clockEdge_next_cases he with ⟨-, rfl⟩ | ⟨hrst, hvalid, rfl⟩ | ⟨hres, rfl⟩ | ⟨i, hacc, hi⟩
  · exact holdsFrame_of_idle rfl _
  · rw [trackFrame_of_no_command hrst (by simp [acceptedCommand, hvalid])]
    exact h
  · rw [trackFrame_of_no_command hres.1 (acceptedCommand_of_reserved hres)]
    exact { h with }
  · rw [trackFrame_accepts hacc]
    exact exec_keeps_holdsFrame h hi

/-- Along a run the registers hold the frame tracked over its edges. -/
theorem runEdges_holdsFrame {es : List Edge} {frame : List Byte} {s t : State} (hs : HoldsFrame frame s)
    (h : runEdges es s = .next t) : HoldsFrame (es.foldl trackFrame frame) t := by
  induction es generalizing frame s with
  | nil =>
    cases h
    exact holdsFrame_with_edges [] hs
  | cons e es ih =>
    obtain ⟨u, hu⟩ := clockEdge_answers e s
    rw [runEdges_cons_of_clockEdge es hu] at h
    exact ih (clockEdge_keeps_holdsFrame hs hu) h

theorem holdsFrame_of_run_after_reset {es : List Edge} {s t : State} (h : runEdges (resetEdge :: es) s = .next t) :
    HoldsFrame (lastFrame es) t := by
  rw [runEdges_resetEdge] at h
  exact runEdges_holdsFrame (holdsFrame_of_idle rfl []) h

/-- Settles O30: after a reset edge MATCH = 1 only in DONE, in DONE the registers hold the frame tracked from the edges, and MATCH compares its
seventh byte with the checksum of the others. -/
theorem finishedFrameIsLastFramePushed : Obligations.FinishedFrameIsLastFramePushed := by
  intro s t es h
  have hdone : t.matched = true → t.fst = .done := (stepKeepsInvariants.2 s t es h).matched_done
  have hmatched : t.fst = .done → (t.matched = true ↔ t.chk = computeChecksum t.payload.bytes) :=
    (frameInv_of_run_after_reset h).done_matched
  have hframe : t.fst = .done → lastFrame es = t.payload.bytes ++ [t.chk] := (holdsFrame_of_run_after_reset h).done_bytes
  refine ⟨hdone, fun hd => ⟨t.payload.bytes, t.chk, hframe hd, rfl, rfl, rfl, hmatched hd, ?_⟩, fun hm => ?_⟩
  · rw [out_mismatch_iff, ← Bool.not_eq_true, hmatched hd]
    exact and_iff_right hd
  · exact ⟨hframe (hdone hm), (hmatched (hdone hm)).mp hm⟩

end Sys2Proof.Machine

/-! PROOFS. Family 43_control: NOP (R64, O32), and ERR.CLR, after which the first-cause rule starts over (R65, O33). -/

namespace Sys2Proof.Machine

open Sys2Proof Sys2Proof.Safety

theorem exec_nop (s : State) : exec .nop s = .next s := rfl

/-- Settles O32: OP 0x00 is NOP whatever DATA, and it writes nothing. -/
theorem nopResult : Obligations.NopResult := fun s =>
  ⟨fun _ => decode_wordOf_op .nop (by simp [Instr.operandOf]), exec_nop s⟩

theorem exec_errClr (s : State) : exec .errClr s = .next (clearError s) := rfl

/-- With ERR and ECAUSE clear there is nothing to clear. -/
theorem clearError_eq_self {s : State} (herr : s.err = false) (hecause : s.ecause = .none) : clearError s = s := by
  rw [clearError, ← herr, ← hecause]

/-- Where ERR = 0 an error action records its own cause (R69). -/
theorem raiseError_ecause_of_no_error {s : State} (h : s.err = false) (c : Cause) : (raiseError c s).ecause = c.recorded := by
  rw [raiseError_ecause, h]
  rfl

/-- Settles O33: OP 0x05 is ERR.CLR whatever DATA, it has no guard, and ERR = 0 after it lets the next error record its own cause. -/
theorem errClrResult : Obligations.ErrClrResult := by
  refine ⟨fun s => ⟨fun _ => decode_wordOf_op .errClr (by simp [Instr.operandOf]), exec_errClr s, fun herr hecause => ?_⟩,
    fun s t c ht => ?_⟩
  · rw [exec_errClr, clearError_eq_self herr hecause]
  · rw [exec_errClr] at ht
    cases ht
    exact raiseError_ecause_of_no_error (clearError_err s) c

end Sys2Proof.Machine

/-! PROOFS. Family 60_exceptions: the error action is all that a raising command does (R69, O34), which edge records which cause (R73, O35), and
the first cause is kept (R74, O36). All three follow from what an edge can do to ERR and ECAUSE. -/

namespace Sys2Proof.Machine

open Sys2Proof Sys2Proof.Safety

/-! ### What an edge can do to ERR and ECAUSE (R69 to R73) -/

/-- The edge `e` raises the cause `c` where FST is `fst` (R70, R71, R72). -/
def Raises (c : Cause) (fst : FrameState) (e : Edge) : Prop :=
  match c with
  | .illegalCmd => PresentsReserved e
  | .frameSeq => fst ≠ .active ∧ ∃ b, Accepts e (.frmPush b)
  | .frameConflict => fst = .active ∧ ∃ i, Accepts e i ∧ conflictsWithFrame i = true

theorem clockEdge_reserved {e : Edge} (h : PresentsReserved e) (s : State) : clockEdge e s = .next (raiseError .illegalCmd s) := by
  obtain ⟨hrst, hvalid, op, hdecode⟩ := h
  simp [clockEdge, hrst, hvalid, execWord_reserved hdecode]

/-- An edge that raises a cause takes the error action and does nothing else (R69). -/
theorem clockEdge_of_raises {c : Cause} {s : State} {e : Edge} (h : Raises c s.fst e) : clockEdge e s = .next (raiseError c s) := by
  cases c with
  | illegalCmd => exact clockEdge_reserved h s
  | frameSeq =>
    obtain ⟨hs, b, hacc⟩ := h
    rw [clockEdge_accepts hacc, exec_frmPush_not_active hs]
  | frameConflict =>
    obtain ⟨ha, i, hacc, hi⟩ := h
    rw [clockEdge_accepts hacc, exec_conflict hi ha]

/-- A command takes the error action of R71 or R72, clears the two flags, or leaves them. -/
theorem exec_flag_cases {i : Instr} {s t : State} (h : exec i s = .next t) :
    (conflictsWithFrame i = true ∧ s.fst = .active ∧ t = raiseError .frameConflict s) ∨
    (∃ b, i = .frmPush b ∧ s.fst ≠ .active ∧ t = raiseError .frameSeq s) ∨
    (i = .errClr ∧ t.err = false ∧ t.ecause = .none) ∨
    (t.err = s.err ∧ t.ecause = s.ecause) := by
  rcases exec_next_cases h with ⟨-, rfl⟩ | ⟨hi, rfl⟩ | ⟨-, rfl⟩ | hconflict | ⟨-, -, rfl⟩ | ⟨b, -, -, rfl⟩ |
    ⟨k, b, -, -, rfl⟩ | hseq | ⟨b, k, -, -, -, rfl⟩ | ⟨b, -, -, -, rfl⟩
  -- All but ERR.CLR and the two error actions leave the flags.
  any_goals exact .inr (.inr (.inr ⟨rfl, rfl⟩))
  · exact .inr (.inr (.inl ⟨hi, rfl, rfl⟩))
  · exact .inl hconflict
  · exact .inr (.inl hseq)

/-- An edge raises a cause, clears the two flags, or leaves them. -/
theorem clockEdge_flag_cases {e : Edge} {s t : State} (h : clockEdge e s = .next t) :
    (∃ c, Raises c s.fst e ∧ t = raiseError c s) ∨
    ((e.rst = true ∨ Accepts e .errClr) ∧ t.err = false ∧ t.ecause = .none) ∨
    (t.err = s.err ∧ t.ecause = s.ecause) := by
  rcases clockEdge_next_cases h with ⟨hrst, rfl⟩ | ⟨-, -, rfl⟩ | ⟨hres, rfl⟩ | ⟨i, hacc, hexec⟩
  · exact .inr (.inl ⟨.inl hrst, rfl, rfl⟩)
  · exact .inr (.inr ⟨rfl, rfl⟩)
  · exact .inl ⟨.illegalCmd, hres, rfl⟩
  · rcases exec_flag_cases hexec with ⟨hi, ha, rfl⟩ | ⟨b, rfl, hs, rfl⟩ | ⟨rfl, hclear⟩ | hkeep
    · exact .inl ⟨.frameConflict, ⟨ha, i, hacc, hi⟩, rfl⟩
    · exact .inl ⟨.frameSeq, ⟨hs, b, hacc⟩, rfl⟩
    · exact .inr (.inl ⟨.inr hacc, hclear⟩)
    · exact .inr (.inr hkeep)

/-! ### The error action is all a raising command does (R69) -/

theorem ecauseAfter_eq_ite (err : Bool) (old : ECause) (c : Cause) :
    ecauseAfter err old c = if err = false then c.recorded else old := by
  cases err <;> rfl

/-- Where ERR = 0 the error action writes ERR and its own cause. -/
theorem raiseError_of_no_error {s : State} (h : s.err = false) (c : Cause) :
    raiseError c s = { s with err := true, ecause := c.recorded } := by
  rw [raiseError, ecauseAfter_eq_ite, if_pos h]

/-- Settles O34: of what an edge can do to ERR, only raising a cause turns it from 0 to 1. -/
theorem errorActionIsWholeEffect : Obligations.ErrorActionIsWholeEffect := by
  refine ⟨fun c s => ?_, rfl, rfl, rfl, fun w s t hs hw ht => ?_⟩
  · rw [raiseError, ecauseAfter_eq_ite]
  · have hedge : clockEdge (.ofWord w) s = .next t := hw
    rcases clockEdge_flag_cases hedge with ⟨c, -, rfl⟩ | ⟨-, herr, -⟩ | ⟨herr, -⟩
    · exact ⟨c, raiseError_of_no_error hs c⟩
    · simp [herr] at ht
    · simp [herr, hs] at ht

/-! ### Which edge records which cause (R73) -/

theorem recorded_injective {c d : Cause} (h : c.recorded = d.recorded) : c = d := by
  cases c <;> cases d <;> cases h <;> rfl

/-- From a state without an error an edge either records the cause it raises or leaves no error. -/
theorem clockEdge_without_error {e : Edge} {s t : State} (herr : s.err = false) (hecause : s.ecause = .none)
    (h : clockEdge e s = .next t) :
    (∃ c, Raises c s.fst e ∧ t.err = true ∧ t.ecause = c.recorded) ∨ (t.err = false ∧ t.ecause = .none) := by
  rcases clockEdge_flag_cases h with ⟨c, hc, rfl⟩ | ⟨-, hclear⟩ | ⟨hkeep, hkeepCause⟩
  · exact .inl ⟨c, hc, rfl, raiseError_ecause_of_no_error herr c⟩
  · exact .inr hclear
  · exact .inr ⟨hkeep.trans herr, hkeepCause.trans hecause⟩

theorem ecause_eq_recorded_iff_raises {e : Edge} {s t : State} (herr : s.err = false) (hecause : s.ecause = .none)
    (h : clockEdge e s = .next t) (c : Cause) : t.ecause = c.recorded ↔ Raises c s.fst e := by
  constructor
  · intro hc
    rcases clockEdge_without_error herr hecause h with ⟨d, hd, -, hrec⟩ | ⟨-, hnone⟩
    · rwa [recorded_injective (hc.symm.trans hrec)]
    · exact absurd (hc.symm.trans hnone) (recorded_ne_none c)
  · intro hc
    rw [clockEdge_of_raises hc] at h
    cases h
    exact raiseError_ecause_of_no_error herr c

theorem err_iff_ecause_ne_none {e : Edge} {s t : State} (herr : s.err = false) (hecause : s.ecause = .none)
    (h : clockEdge e s = .next t) : t.err = true ↔ t.ecause ≠ .none := by
  rcases clockEdge_without_error herr hecause h with ⟨c, -, hset, hrec⟩ | ⟨hclear, hnone⟩
  · simp [hset, hrec, recorded_ne_none]
  · simp [hclear, hnone]

/-- Settles O35: the step is the edge at the head, and from a state without an error it records a cause exactly when it raises it. -/
theorem causeDeterminedByCommand : Obligations.CauseDeterminedByCommand := by
  intro s t e rest hedges herr hecause hstep
  rw [step_cons hedges] at hstep
  have hcause : ∀ c : Cause, t.ecause = c.recorded ↔ Raises c s.fst e :=
    ecause_eq_recorded_iff_raises (s := { s with edges := rest }) herr hecause hstep
  have hflag : t.err = true ↔ t.ecause ≠ .none := err_iff_ecause_ne_none (s := { s with edges := rest }) herr hecause hstep
  exact ⟨hcause .illegalCmd, hcause .frameSeq, hcause .frameConflict, hflag⟩

/-! ### The first cause is kept (R74) -/

/-- With ERR set, an edge without reset and ERR.CLR leaves both flags: an error action then changes nothing. -/
theorem clockEdge_keeps_first_cause {e : Edge} {s t : State} (herr : s.err = true) (hrst : e.rst = false)
    (hclr : acceptedCommand e ≠ some .errClr) (h : clockEdge e s = .next t) : t.err = true ∧ t.ecause = s.ecause := by
  rcases clockEdge_flag_cases h with ⟨c, -, rfl⟩ | ⟨hreset | hacc, -⟩ | ⟨hkeep, hcause⟩
  · rw [raiseError_of_err herr]
    exact ⟨herr, rfl⟩
  · simp [hrst] at hreset
  · exact absurd (acceptedCommand_of_accepts hacc) hclr
  · exact ⟨hkeep.trans herr, hcause⟩

/-- Settles O36, by induction on the edges. -/
theorem firstCauseKept : Obligations.FirstCauseKept := by
  intro s es herr hes
  induction es generalizing s with
  | nil => exact ⟨_, runEdges_nil s, herr, rfl⟩
  | cons e es ih =>
    obtain ⟨⟨hrst, hclr⟩, htail⟩ := List.forall_mem_cons.mp hes
    obtain ⟨u, hu⟩ := clockEdge_answers e s
    obtain ⟨huErr, huCause⟩ := clockEdge_keeps_first_cause herr hrst hclr hu
    rw [runEdges_cons_of_clockEdge es hu, ← huCause]
    exact ih u huErr htail

end Sys2Proof.Machine

/-! PROOFS. Family 70_reset_and_hazards: an edge with `rst = 1` gives the reset state and its outputs, whatever the state and the command
(R80, R81, O10). -/

namespace Sys2Proof.Machine

open Sys2Proof Sys2Proof.Safety

/-- Reset wins over any command (R81): neither `cmd_valid` nor `cmd` matters. -/
theorem clockEdge_reset {e : Edge} (h : e.rst = true) (s : State) : clockEdge e s = .next (resetRegisters s) := if_pos h

/-- After any edge with `rst = 1` the run is the one from the reset state, whatever the state was. -/
theorem runEdges_cons_of_rst {e : Edge} (h : e.rst = true) (es : List Edge) (s : State) :
    runEdges (e :: es) s = runEdges es State.reset :=
  calc runEdges (e :: es) s
    _ = runEdges es (resetRegisters s) := runEdges_cons_of_clockEdge es (clockEdge_reset h s)
    _ = runEdges es State.reset := rfl

/-- Held reset keeps the reset state. -/
theorem runEdges_reset_of_all_rst {es : List Edge} (h : ∀ e ∈ es, e.rst = true) : runEdges es State.reset = .next State.reset := by
  induction es with
  | nil => exact runEdges_nil State.reset
  | cons e es ih =>
    obtain ⟨hrst, htail⟩ := List.forall_mem_cons.mp h
    rw [runEdges_cons_of_rst hrst, ih htail]

/-- Settles O10: the first reset edge brings every state to the reset state and the others keep it; its outputs are V-R1's. -/
theorem resetEdgeGivesResetState : Obligations.ResetEdgeGivesResetState := by
  refine ⟨fun s e rest hedges hrst => ?_, fun s es hne hes => ?_, rfl⟩
  · rw [step_cons hedges, clockEdge_reset hrst]
    rfl
  · obtain ⟨e, tail, rfl⟩ := List.exists_cons_of_ne_nil hne
    obtain ⟨hrst, htail⟩ := List.forall_mem_cons.mp hes
    rw [runEdges_cons_of_rst hrst, runEdges_reset_of_all_rst htail]

end Sys2Proof.Machine

/-! PROOFS. Family other, first part: the encoder against the decoder (O1, O4), the assembler's words (O6), a step as one clock edge (O8, O9, O11),
and what every step keeps of a frame (O43, O45, O46, O50). -/

namespace Sys2Proof

/-! ### Encode and decode (R36, R37, R39, R41) -/

/-- A word means a command exactly when OP is the command's and DATA is its operand, if it has one. -/
theorem decode_eq_command_iff (w : CmdWord) (i : Instr) :
    decode w = .command i ↔ i.op = opOf w ∧ ∀ b, i.operandOf = some b → b = dataOf w := by
  constructor
  · exact fun h => ⟨op_eq_of_decode_command h, operand_eq_of_decode_command h⟩
  · rintro ⟨hop, hdata⟩
    rw [← wordOf_fields w, ← hop]
    exact decode_wordOf_op i hdata

theorem decode_encode (i : Instr) : decode (encode i) = .command i :=
  decode_wordOf_op i fun b hb => by rw [hb, Option.getD_some]

/-- Operands are bytes and the index of PAY.WR is a constructor, so every command passes the checks of R43. -/
theorem instr_wellFormed (i : Instr) : i.wellFormed = true := by
  cases i with
  | nop | crcInit | frmStart | errClr => rfl
  | crcFeed b | frmPush b | payWr0 b | payWr1 b | payWr2 b | payWr3 b | payWr4 b | payWr5 b =>
    exact Laws.EncodedRow.operand_isByte b

theorem wordOf_eq_iff (op d : Byte) (w : CmdWord) : w = wordOf op d ↔ op = opOf w ∧ d = dataOf w := by
  constructor
  · rintro rfl
    simp
  · rintro ⟨rfl, rfl⟩
    exact (wordOf_fields w).symm

/-- On the significant bits a word agrees with a command's word exactly when OP does, and DATA where it is read. -/
theorem agrees_on_significantBits_iff (w : CmdWord) (i : Instr) :
    w &&& i.significantBits = encode i ↔ i.op = opOf w ∧ ∀ b, i.operandOf = some b → b = dataOf w := by
  cases hoperand : i.operandOf with
  | none =>
    have hmask : i.significantBits = 0xFF00#16 := by simp only [Instr.significantBits, hoperand]
    have hword : encode i = wordOf i.op 0x00#8 := by rw [encode, hoperand, Option.getD_none]
    rw [hmask, hword]
    simpa [Instr.row] using matches_row_iff w i
  | some b =>
    have hmask : i.significantBits = BitVec.allOnes 16 := by simp only [Instr.significantBits, hoperand]; rfl
    have hword : encode i = wordOf i.op b := by rw [encode, hoperand, Option.getD_some]
    rw [hmask, hword, BitVec.and_allOnes, wordOf_eq_iff]
    simp

/-- Settles O1: the decoder and the significant bits both look at OP, and at DATA where the command has an operand. -/
theorem decodeInvertsEncode : Obligations.DecodeInvertsEncode := fun i =>
  ⟨instr_wellFormed i, decode_encode i, fun w => (decode_eq_command_iff w i).trans (agrees_on_significantBits_iff w i).symm⟩

/-- Settles O4: the thirteen written words, decoded one by one. -/
theorem writtenWordsDecode : Obligations.WrittenWordsDecode :=
  ⟨by decide, by decide, by decide, by decide, by decide, by decide, by decide, by decide, by decide, by decide, by decide, by decide,
    by decide⟩

end Sys2Proof

namespace Sys2Proof.Machine

open Sys2Proof Sys2Proof.Safety

/-! ### The words of the assembler's lines (R43) -/

/-- OP above DATA, as the table of R43 writes it with numbers. -/
theorem wordOf_ofNat {op d : Nat} (hop : op < 256) (hd : d < 256) :
    wordOf (BitVec.ofNat 8 op) (BitVec.ofNat 8 d) = BitVec.ofNat 16 ((op <<< 8) ||| d) := by
  apply BitVec.eq_of_toNat_eq
  have hword : (wordOf (BitVec.ofNat 8 op) (BitVec.ofNat 8 d)).toNat = op * 256 + d := by
    rw [wordOf, toNat_append_eq_add, BitVec.toNat_ofNat, BitVec.toNat_ofNat]
    omega
  rw [hword, BitVec.toNat_ofNat, ← Nat.shiftLeft_add_eq_or_of_lt hd, Nat.shiftLeft_eq]
  omega

/-- A line of one word is assembled to it where the checks pass, and is refused elsewhere. -/
theorem assemble_of_wellFormed_iff {l : AsmLine} {w : CmdWord} {p : Prop} [Decidable p] (hwf : l.wellFormed = true ↔ p)
    (hword : p → lineWords l = [w]) : assemble l = if p then some [w] else none := by
  by_cases hp : p
  · rw [assemble, if_pos (hwf.mpr hp), if_pos hp, hword hp]
  · rw [assemble, if_neg (fun h => hp (hwf.mp h)), if_neg hp]

theorem isByte_iff (b : Nat) : isByte b = true ↔ b ≤ 255 := by
  rw [isByte, decide_eq_true_iff]
  omega

theorem assemble_crcFeed (b : Nat) :
    assemble (.crcFeed b) = if b ≤ 255 then some [BitVec.ofNat 16 (0x0200 ||| b)] else none :=
  assemble_of_wellFormed_iff (isByte_iff b) fun hb => congrArg ([·]) (wordOf_ofNat (op := 0x02) (by decide) (by omega))

theorem assemble_frmPush (b : Nat) :
    assemble (.frmPush b) = if b ≤ 255 then some [BitVec.ofNat 16 (0x0400 ||| b)] else none :=
  assemble_of_wellFormed_iff (isByte_iff b) fun hb => congrArg ([·]) (wordOf_ofNat (op := 0x04) (by decide) (by omega))

theorem assemble_payWr (i b : Nat) : assemble (.payWr i b) =
    if i ≤ 5 ∧ b ≤ 255 then some [BitVec.ofNat 16 (((0x08 + i) <<< 8) ||| b)] else none := by
  apply assemble_of_wellFormed_iff
  · rw [AsmLine.wellFormed, Bool.and_eq_true, decide_eq_true_iff, isByte_iff]
  · rintro ⟨hi, hb⟩
    exact congrArg ([·]) (wordOf_ofNat (by omega) (by omega))

theorem assemble_word (w : Nat) : assemble (.word w) = if w ≤ 65535 then some [BitVec.ofNat 16 w] else none := by
  apply assemble_of_wellFormed_iff
  · rw [AsmLine.wellFormed, decide_eq_true_iff]
    omega
  · exact fun _ => rfl

/-- Settles O6: the checks of R43 are bounds on the numbers, and the word of a line is OP above DATA. -/
theorem assemblerWordsOfLines : Obligations.AssemblerWordsOfLines :=
  ⟨rfl, rfl, rfl, rfl, fun b => ⟨assemble_crcFeed b, assemble_frmPush b, assemble_word b, fun i => assemble_payWr i b⟩⟩

/-! ### A step is one clock edge (R13, R42, R80, R85, R87, R89) -/

/-- Settles O8: with an edge supplied the step is that edge, and what an edge does is decided by `rst`, `cmd_valid` and the decoder. -/
theorem stepIsOneClockEdge : Obligations.StepIsOneClockEdge := by
  refine ⟨fun s => step_nil, fun s e rest hedges => ?_⟩
  rw [step_cons hedges]
  exact ⟨fun hrst => clockEdge_reset hrst _, fun hrst hvalid => clockEdge_quiet ((isQuiet_iff e).mpr ⟨hrst, .inl hvalid⟩) _,
    fun i hrst hvalid hdecode => clockEdge_accepts ⟨hrst, hvalid, hdecode⟩ _,
    fun op hrst hvalid hdecode => clockEdge_reserved ⟨hrst, hvalid, op, hdecode⟩ _⟩

theorem decode_of_decodeTableWord {nbits w : Nat} {i : Instr} (h : decodeTableWord nbits w = some i) :
    decode (tableWord nbits w) = .command i := by
  unfold decodeTableWord at h
  split at h <;> cases h
  assumption

/-- Settles O9: the placed edge stands first and presents the table word. -/
theorem placedWordRunsNext : Obligations.PlacedWordRunsNext := fun s nbits w i h =>
  calc step (s.withFetchWord nbits w)
    _ = execWord (tableWord nbits w) s := rfl
    _ = exec i s := execWord_command (decode_of_decodeTableWord h) s

/-- Every step answers a next state and takes one edge, if there is one (R85, R87). -/
theorem step_answers (s : State) : ∃ t, step s = .next t ∧ t.edges = s.edges.tail := by
  cases hedges : s.edges with
  | nil => exact ⟨s, step_nil hedges, hedges⟩
  | cons e rest =>
    obtain ⟨t, ht⟩ := clockEdge_answers e { s with edges := rest }
    exact ⟨t, (step_cons hedges).trans ht, clockEdge_edges ht⟩

/-- Settles O11, by induction on the number of steps. -/
theorem runsNeverStop : Obligations.RunsNeverStop := by
  intro n
  induction n with
  | zero => exact fun s => ⟨s, rfl, rfl⟩
  | succ n ih =>
    intro s
    obtain ⟨u, hu, huEdges⟩ := step_answers s
    obtain ⟨t, ht, htEdges⟩ := ih u
    exact ⟨t, (run_next hu).trans ht, by rw [htEdges, huEdges, List.drop_tail]⟩

/-! ### What every step keeps of the frame (R25, R60, R62) -/

/-- Settles O43: in IDLE with all flags clear, the invariants ask only for the cleared registers. -/
theorem resetSatisfiesInvariants : Obligations.ResetSatisfiesInvariants :=
  ⟨inv_resetRegisters State.reset, frameInv_of_idle rfl⟩

/-- A step with an edge left is that edge. -/
theorem clockEdge_of_step {s t : State} {e : Edge} {rest : List Edge} (hedges : s.edges = e :: rest) (h : step s = .next t) :
    clockEdge e { s with edges := rest } = .next t := by
  rwa [step_cons hedges] at h

/-- Settles O45: every edge keeps what the registers say of the frame, and without an edge nothing changes. -/
theorem stepKeepsFrameMeaning : Obligations.StepKeepsFrameMeaning := by
  intro s t _ hframe hstep
  cases hedges : s.edges with
  | nil =>
    rw [step_nil hedges] at hstep
    cases hstep
    exact hframe
  | cons e rest => exact clockEdge_keeps_frameInv (frameInv_with_edges rest hframe) (clockEdge_of_step hedges hstep)

/-- Settles O50: the step is the edge at the head, and every edge keeps the registers holding the tracked frame. -/
theorem stepKeepsTrackedFrame : Obligations.StepKeepsTrackedFrame := fun _ _ _ rest _ hedges _ hframe hstep =>
  clockEdge_keeps_holdsFrame (holdsFrame_with_edges rest hframe) (clockEdge_of_step hedges hstep)

/-- Settles O46: the run after a reset edge keeps what the registers say of the frame, and MATCH = 1 only in DONE. -/
theorem runsAfterResetAreSound : Obligations.RunsAfterResetAreSound := by
  intro s t es h
  have hframe : FrameInv t := frameInv_of_run_after_reset h
  have hinv : Inv t := stepKeepsInvariants.2 s t es h
  exact ⟨hframe, fun hm => (hframe.done_matched (hinv.matched_done hm)).mp hm⟩

/-- Settles O48: the codes are the definition's, and none of the three of FST is 11. -/
theorem codesOfFrameStateAndCause : Obligations.CodesOfFrameStateAndCause :=
  ⟨rfl, rfl, rfl, fst_code_ne_three, rfl, rfl, rfl, rfl⟩

end Sys2Proof.Machine

/-! PROOFS. Family other, second part: the checksum function and its runs (O16, O17, O18), the unpacker's outputs (O24, O25), and whole frames by
command sequence (O26, O29, O49). -/

namespace Sys2Proof.Machine

open Sys2Proof Sys2Proof.Safety

/-! ### compute_checksum (R45, R49) -/

/-- Settles O16: the worked values, iteration by iteration. -/
theorem checksumWorkedValues : Obligations.ChecksumWorkedValues := by
  refine ⟨computeChecksum_nil, ?_, ?_, ?_, ?_, ?_⟩ <;>
    simp [computeChecksum, Config.crcInit, crc8Update_eq, crc8Shifts, crc8Shift, BitVec.msb_eq_decide, Config.crcPoly]

/-- Bytes that follow keep two different CRC values apart, since the byte update loses nothing. -/
theorem foldl_crc8Update_injective (bs : List Byte) {r q : Byte} (h : bs.foldl crc8Update r = bs.foldl crc8Update q) : r = q := by
  induction bs generalizing r q with
  | nil => exact h
  | cons b bs ih => exact crc8Update_left_injective (ih h)

theorem computeChecksum_append (bs cs : List Byte) : computeChecksum (bs ++ cs) = cs.foldl crc8Update (computeChecksum bs) :=
  List.foldl_append

theorem computeChecksum_ne_of_byte_ne (before after : List Byte) {b c : Byte} (h : b ≠ c) :
    computeChecksum (before ++ b :: after) ≠ computeChecksum (before ++ c :: after) := by
  intro heq
  rw [computeChecksum_append, computeChecksum_append] at heq
  exact h (crc8Update_right_injective (foldl_crc8Update_injective after heq))

theorem byte_ne_xor_twoPow (b : Byte) (k : Fin 8) : b ≠ b ^^^ BitVec.twoPow 8 k.val := by
  intro h
  have hbit := congrArg (BitVec.getLsbD · k.val) h
  simp at hbit

/-- The second byte undoes the difference the first one made. -/
theorem computeChecksum_collision : computeChecksum [0x00#8, 0x00#8] = computeChecksum [0x01#8, 0x31#8] := by
  have hsame : crc8Update 0xFF#8 0x00#8 ^^^ 0x00#8 = crc8Update 0xFF#8 0x01#8 ^^^ 0x31#8 := by decide
  have htwo (a b : Byte) : computeChecksum [a, b] = crc8Shifts 8 (crc8Update 0xFF#8 a ^^^ b) := rfl
  rw [htwo, htwo, hsame]

/-- Settles O17: a changed byte gives another CRC value, which the bytes after it keep apart; the two-byte inputs collide. -/
theorem checksumSeesOneByteChange : Obligations.ChecksumSeesOneByteChange :=
  ⟨fun before after _ _ h => computeChecksum_ne_of_byte_ne before after h,
    fun before after b k => computeChecksum_ne_of_byte_ne before after (byte_ne_xor_twoPow b k),
    [0x00#8, 0x00#8], [0x01#8, 0x31#8], by decide, rfl, computeChecksum_collision⟩

/-! ### Runs over encoded commands -/

theorem accepts_ofWord_encode (i : Instr) : Accepts (.ofWord (encode i)) i := ⟨rfl, rfl, decode_encode i⟩

/-- The words of CRC.FEED feed their bytes. -/
theorem acceptedCommand_crcFeeds (bs : List Byte) :
    (edgesOf (bs.map fun b => encode (.crcFeed b))).map acceptedCommand = bs.map fun b => some (.crcFeed b) := by
  rw [edgesOf, List.map_map, List.map_map]
  exact List.map_congr_left fun b _ => acceptedCommand_of_accepts (accepts_ofWord_encode (.crcFeed b))

/-- From reset the fed bytes leave their checksum in CRC, which starts at 0xFF (R24, R83). -/
theorem runEdges_crcFeeds_from_reset (bs : List Byte) :
    runEdges (edgesOf (bs.map fun b => encode (.crcFeed b))) State.reset = .next { State.reset with crc := computeChecksum bs } :=
  runEdges_crcFeeds (by decide) (acceptedCommand_crcFeeds bs)

/-- Settles O18: after a reset edge the run starts from the reset state, which CRC.INIT leaves as it is. -/
theorem firstChecksumNeedsNoInit : Obligations.FirstChecksumNeedsNoInit := by
  intro s bs
  rw [runEdges_resetEdge, runEdges_resetEdge]
  have hinit : clockEdge (.ofWord (encode .crcInit)) State.reset = .next State.reset := by
    rw [clockEdge_accepts (accepts_ofWord_encode _), exec_crcInit (by decide)]
    rfl
  exact ⟨runEdges_crcFeeds_from_reset bs, (runEdges_cons_of_clockEdge _ hinit).trans (runEdges_crcFeeds_from_reset bs)⟩

/-! ### The unpacker's outputs (R51 to R56) -/

/-- Settles O24: 25 divides both scaled outputs back, after the offset of the temperature is undone. -/
theorem scalingLossless : Obligations.ScalingLossless := by
  intro s
  have hhum : s.out.humFx.toNat = s.out.rawH.toNat * 25 := humFxOf_toNat _
  have htemp : s.out.tempFx.toInt = (s.out.rawT.toNat : Int) * 25 - 6553600 := tempFxOf_toInt _
  omega

theorem rawH_congr {p q : Payload} (h1 : p.p1 = q.p1) (h2 : p.p2 = q.p2)
    (h3 : p.p3.extractLsb' 4 4 = q.p3.extractLsb' 4 4) : rawH p = rawH q := by
  rw [rawH, rawH, h1, h2, h3]

theorem rawT_congr {p q : Payload} (h3 : p.p3.extractLsb' 0 4 = q.p3.extractLsb' 0 4) (h4 : p.p4 = q.p4)
    (h5 : p.p5 = q.p5) : rawT p = rawT q := by
  rw [rawT, rawT, h3, h4, h5]

/-- Settles O25: each raw field is its three parts side by side, and the scaled output is a function of the field. -/
theorem unpackerReadsBytesOneToFive : Obligations.UnpackerReadsBytesOneToFive := fun _ _ h4 h5 h1 h2 =>
  ⟨fun h3 => ⟨rawH_congr h1 h2 h3, congrArg humFxOf (rawH_congr h1 h2 h3)⟩,
    fun h3 => ⟨rawT_congr h3 h4 h5, congrArg tempFxOf (rawT_congr h3 h4 h5)⟩⟩

/-! ### The outcome of a frame (R62, R63) -/

theorem takeReading_of_matched {s : State} (h : s.matched = true) :
    takeReading s.out = .reading (scaleHumidity s.out.rawH) (scaleTemperature s.out.rawT) := by
  have hout : s.out.matchOut = true := h
  rw [takeReading, if_pos hout]
  exact congrArg₂ FrameOutcome.reading (humPercent_humFxOf _) (tempCelsius_tempFxOf _)

theorem readRaw_of_matched {s : State} (h : s.matched = true) : readRaw s.out = some s.payload.bytes := if_pos h

theorem readRaw_of_not_matched {s : State} (h : s.matched = false) : readRaw s.out = none := if_neg (by simp [State.out, h])

theorem takeReading_of_not_matched {s : State} (h : s.matched = false) :
    takeReading s.out = if s.fst = .done then .checksumMismatch else .pending := by
  have hout : s.out.matchOut = false := h
  simp [takeReading, hout, out_mismatch_iff, h]

/-- Settles O49: MATCH = 1 only in DONE, so the three cases are MATCH = 1, DONE without it, and outside DONE. -/
theorem readingOnlyWhileMatched : Obligations.ReadingOnlyWhileMatched := by
  intro s hinv
  refine ⟨fun hm => ⟨takeReading_of_matched hm, readRaw_of_matched hm, ?_⟩, fun hd hm => ?_, fun hs => ?_⟩
  · rw [← Bool.not_eq_true, out_mismatch_iff, hm]
    simp
  · rw [takeReading_of_not_matched hm, if_pos hd]
    exact ⟨rfl, readRaw_of_not_matched hm⟩
  · have hm : s.matched = false := Bool.eq_false_iff.mpr fun hm => hs (hinv.matched_done hm)
    rw [takeReading_of_not_matched hm, if_neg hs]
    exact ⟨rfl, readRaw_of_not_matched hm⟩

/-! ### FRM.LOAD (R44, R58, R59) -/

/-- The state FRM.LOAD of a payload and a checksum byte leaves. -/
def afterFrmLoad (p : Payload) (c : Byte) (s : State) : State :=
  { s with crc := computeChecksum p.bytes, payload := p, chk := c, fst := .done, idx := 7#3,
           matched := decide (computeChecksum p.bytes = c), edges := [] }

theorem clockEdge_frmPush_payload {s : State} {k : Fin 6} (ha : s.fst = .active) (hk : s.idx.toNat = k.val) (b : Byte) :
    clockEdge (.ofWord (encode (.frmPush b))) s = .next (takePayloadByte k b s) := by
  rw [clockEdge_accepts (accepts_ofWord_encode _), exec_frmPush_payload ha hk]

theorem clockEdge_frmPush_checksum {s : State} (ha : s.fst = .active) (hidx : 6 ≤ s.idx.toNat) (b : Byte) :
    clockEdge (.ofWord (encode (.frmPush b))) s = .next (takeChecksumByte b s) := by
  rw [clockEdge_accepts (accepts_ofWord_encode _), exec_frmPush_checksum ha hidx]

/-- The registers after FRM.START, six payload bytes and the checksum byte. -/
theorem takeChecksumByte_after_payload (s : State) (b0 b1 b2 b3 b4 b5 c : Byte) :
    { takeChecksumByte c (takePayloadByte 5 b5 (takePayloadByte 4 b4 (takePayloadByte 3 b3 (takePayloadByte 2 b2
      (takePayloadByte 1 b1 (takePayloadByte 0 b0 (startFrame s))))))) with edges := [] } =
      afterFrmLoad ⟨b0, b1, b2, b3, b4, b5⟩ c s := by
  rw [afterFrmLoad, Payload.bytes, computeChecksum]
  simp only [List.foldl_cons, List.foldl_nil]
  rfl

/-- The eight words of FRM.LOAD, from any state: FRM.START makes the frame active, and IDX counts each byte to its register. -/
theorem runEdges_frmLoad (s : State) (b0 b1 b2 b3 b4 b5 c : Byte) :
    runEdges (edgesOf [encode .frmStart, encode (.frmPush b0), encode (.frmPush b1), encode (.frmPush b2), encode (.frmPush b3),
      encode (.frmPush b4), encode (.frmPush b5), encode (.frmPush c)]) s =
      .next (afterFrmLoad ⟨b0, b1, b2, b3, b4, b5⟩ c s) := by
  rw [← takeChecksumByte_after_payload]
  calc runEdges _ s
    _ = runEdges _ (startFrame s) := runEdges_cons_of_clockEdge _ (clockEdge_accepts (accepts_ofWord_encode .frmStart) s)
    _ = runEdges _ _ := runEdges_cons_of_clockEdge _ (clockEdge_frmPush_payload (k := 0) rfl rfl b0)
    _ = runEdges _ _ := runEdges_cons_of_clockEdge _ (clockEdge_frmPush_payload (k := 1) rfl rfl b1)
    _ = runEdges _ _ := runEdges_cons_of_clockEdge _ (clockEdge_frmPush_payload (k := 2) rfl rfl b2)
    _ = runEdges _ _ := runEdges_cons_of_clockEdge _ (clockEdge_frmPush_payload (k := 3) rfl rfl b3)
    _ = runEdges _ _ := runEdges_cons_of_clockEdge _ (clockEdge_frmPush_payload (k := 4) rfl rfl b4)
    _ = runEdges _ _ := runEdges_cons_of_clockEdge _ (clockEdge_frmPush_payload (k := 5) rfl rfl b5)
    _ = runEdges [] _ := runEdges_cons_of_clockEdge _ (clockEdge_frmPush_checksum rfl (by exact le_refl 6) c)

/-- Settles O29: MATCH after FRM.LOAD is the comparison, and decides the outcome. -/
theorem frmLoadOutcome : Obligations.FrmLoadOutcome := by
  intro s b0 b1 b2 b3 b4 b5 c
  refine ⟨_, runEdges_frmLoad s b0 b1 b2 b3 b4 b5 c, rfl, ?_⟩
  have hmatched : (afterFrmLoad ⟨b0, b1, b2, b3, b4, b5⟩ c s).matched =
      decide (computeChecksum [b0, b1, b2, b3, b4, b5] = c) := rfl
  by_cases h : computeChecksum [b0, b1, b2, b3, b4, b5] = c
  · have hm := hmatched.trans (decide_eq_true h)
    rw [if_pos h, if_pos h, ← rawH_eq_extractHumidity, ← rawT_eq_extractTemperature]
    exact ⟨takeReading_of_matched hm, readRaw_of_matched hm⟩
  · have hm := hmatched.trans (decide_eq_false h)
    rw [if_neg h, if_neg h, takeReading_of_not_matched hm]
    exact ⟨rfl, readRaw_of_not_matched hm⟩

/-- Settles O26: both paths end with the six bytes as the payload, and the outputs are functions of the payload. -/
theorem directAndFramePathsAgree : Obligations.DirectAndFramePathsAgree := fun _ s' b0 b1 b2 b3 b4 b5 c h =>
  ⟨_, _, runEdges_payLoad h b0 b1 b2 b3 b4 b5, runEdges_frmLoad s' b0 b1 b2 b3 b4 b5 c, rfl, rfl, rfl, rfl, rfl, rfl,
    rawH_eq_extractHumidity _, rawT_eq_extractTemperature _, humPercent_humFxOf _, tempCelsius_tempFxOf _⟩

end Sys2Proof.Machine

/-! PROOFS. Family other, third part: repeated commands (R32, O37), a frame among stray commands (R72, O31), and who writes and who reads each
register (R14 to R20, O38 to O42). -/

namespace Sys2Proof.Machine

open Sys2Proof Sys2Proof.Safety

/-! ### Repeated commands (R32) -/

theorem write_write (p : Payload) (k : Fin 6) (b : Byte) : (p.write k b).write k b = p.write k b :=
  payload_ext fun j => by
    rw [read_write, read_write]
    split <;> rfl

theorem writePayloadDirect_twice (k : Fin 6) (b : Byte) (s : State) :
    writePayloadDirect k b (writePayloadDirect k b s) = writePayloadDirect k b s := by
  simp only [writePayloadDirect, write_write]

/-- A command that neither feeds nor pushes a byte does the same again: it writes fixed values, or takes an error action. -/
theorem exec_twice {i : Instr} {s t : State} (hfeed : ∀ b, i ≠ .crcFeed b) (hpush : ∀ b, i ≠ .frmPush b)
    (h : exec i s = .next t) : exec i t = .next t := by
  rcases exec_next_cases h with ⟨rfl, rfl⟩ | ⟨rfl, rfl⟩ | ⟨rfl, rfl⟩ | ⟨hi, ha, rfl⟩ | ⟨rfl, hs, rfl⟩ | ⟨b, rfl, -⟩ |
    ⟨k, b, rfl, -, rfl⟩ | ⟨b, rfl, -⟩ | ⟨b, k, rfl, -⟩ | ⟨b, rfl, -⟩
  · exact exec_nop t
  · exact exec_errClr _
  · exact exec_frmStart _
  · rw [exec_conflict hi (by simpa using ha), raiseError_twice]
  · exact exec_crcInit (by simpa using hs)
  · exact absurd rfl (hfeed b)
  · rw [exec_payWr (by simp), writePayloadDirect_twice]
  · exact absurd rfl (hpush b)
  · exact absurd rfl (hpush b)
  · exact absurd rfl (hpush b)

/-- In reset, CRC.FEED 0xFF clears CRC, and once more it does not. -/
theorem exists_crcFeed_not_twice : ∃ (b : Byte) (s t : State), exec (.crcFeed b) s = .next t ∧ exec (.crcFeed b) t ≠ .next t := by
  refine ⟨0xFF#8, State.reset, _, exec_crcFeed (by decide) _, fun h => ?_⟩
  rw [exec_crcFeed (by decide)] at h
  have hcrc := congrArg State.crc (Host.Outcome.next.inj h)
  simp only [setCrc_crc] at hcrc
  have hfixed : crc8Update 0xFF#8 0xFF#8 = 0xFF#8 := crc8Update_left_injective hcrc
  exact absurd hfixed (by decide)

/-- The second byte of a frame counts IDX on. -/
theorem exists_frmPush_not_twice : ∃ (b : Byte) (s t : State), exec (.frmPush b) s = .next t ∧ exec (.frmPush b) t ≠ .next t := by
  refine ⟨0x00#8, startFrame State.reset, _, exec_frmPush_payload (k := 0) rfl rfl _, fun h => ?_⟩
  rw [exec_frmPush_payload (k := 1) rfl rfl] at h
  have hidx : (2#3 : BitVec 3) = 1#3 := congrArg State.idx (Host.Outcome.next.inj h)
  exact absurd hidx (by decide)

/-- Settles O37: fixed values written twice are written once, and a second error action changes nothing. -/
theorem repeatedCommandChangesNothing : Obligations.RepeatedCommandChangesNothing := by
  refine ⟨fun i s t hfeed hpush h => exec_twice hfeed hpush h, fun w s t hd h => ?_, fun b s t ha h => ?_, fun b s t hs h => ?_,
    exists_crcFeed_not_twice, exists_frmPush_not_twice⟩
  · rw [execWord_reserved hd] at h ⊢
    cases h
    rw [raiseError_twice]
  · rw [exec_conflict rfl ha] at h
    cases h
    rw [exec_conflict rfl (by simpa using ha), raiseError_twice]
  · rw [exec_frmPush_not_active hs] at h
    cases h
    rw [exec_frmPush_not_active (by simpa using hs), raiseError_twice]

/-! ### Everything an edge can write, the error flags apart (R14 to R19) -/

/-- The edge writes `v` into CRC by CRC.INIT or CRC.FEED. -/
def SetsCrc (e : Edge) (crc v : Byte) : Prop :=
  (Accepts e .crcInit ∧ v = 0xFF#8) ∨ ∃ b, Accepts e (.crcFeed b) ∧ v = crc8Update crc b

/-- The two states differ in ERR and ECAUSE at most. -/
def SameButError (s t : State) : Prop := t = { s with err := t.err, ecause := t.ecause }

theorem sameButError_raiseError (c : Cause) (s : State) : SameButError s (raiseError c s) := rfl

theorem clockEdge_write_cases {e : Edge} {s t : State} (h : clockEdge e s = .next t) :
    SameButError s t ∨
    (e.rst = true ∧ t = resetRegisters s) ∨
    (Accepts e .frmStart ∧ t = startFrame s) ∨
    (∃ v, SetsCrc e s.crc v ∧ s.fst ≠ .active ∧ t = setCrc v s) ∨
    (∃ k b, Accepts e (payWrCommand k b) ∧ s.fst ≠ .active ∧ t = writePayloadDirect k b s) ∨
    (∃ b, ∃ k : Fin 6, Accepts e (.frmPush b) ∧ s.fst = .active ∧ s.idx.toNat = k.val ∧ t = takePayloadByte k b s) ∨
    (∃ b, Accepts e (.frmPush b) ∧ s.fst = .active ∧ 6 ≤ s.idx.toNat ∧ t = takeChecksumByte b s) := by
  rcases clockEdge_next_cases h with hreset | ⟨-, -, rfl⟩ | ⟨-, rfl⟩ | ⟨i, hacc, hexec⟩
  · exact .inr (.inl hreset)
  · exact .inl rfl
  · exact .inl (sameButError_raiseError _ s)
  rcases exec_next_cases hexec with ⟨-, rfl⟩ | ⟨-, rfl⟩ | ⟨rfl, ht⟩ | ⟨-, -, rfl⟩ | ⟨rfl, hs, ht⟩ | ⟨b, rfl, hs, ht⟩ |
    ⟨k, b, rfl, hs, ht⟩ | ⟨b, -, -, rfl⟩ | ⟨b, k, rfl, ha, hk, ht⟩ | ⟨b, rfl, ha, hidx, ht⟩
  · exact .inl rfl
  · exact .inl rfl
  · exact .inr (.inr (.inl ⟨hacc, ht⟩))
  · exact .inl (sameButError_raiseError _ s)
  · exact .inr (.inr (.inr (.inl ⟨_, .inl ⟨hacc, rfl⟩, hs, ht⟩)))
  · exact .inr (.inr (.inr (.inl ⟨_, .inr ⟨b, hacc, rfl⟩, hs, ht⟩)))
  · exact .inr (.inr (.inr (.inr (.inl ⟨k, b, hacc, hs, ht⟩))))
  · exact .inl (sameButError_raiseError _ s)
  · exact .inr (.inr (.inr (.inr (.inr (.inl ⟨b, k, hacc, ha, hk, ht⟩)))))
  · exact .inr (.inr (.inr (.inr (.inr (.inr ⟨b, hacc, ha, hidx, ht⟩)))))

/-! ### CRC (R14) -/

theorem clockEdge_crc_writers {e : Edge} {s t : State} (h : clockEdge e s = .next t) (hcrc : t.crc ≠ s.crc) :
    (e.rst = true ∧ t.crc = 0xFF#8) ∨
    (Accepts e .crcInit ∧ s.fst ≠ .active ∧ t.crc = 0xFF#8) ∨
    (Accepts e .frmStart ∧ t.crc = 0xFF#8) ∨
    (∃ b, Accepts e (.crcFeed b) ∧ s.fst ≠ .active ∧ t.crc = crc8Update s.crc b) ∨
    (∃ b, Accepts e (.frmPush b) ∧ s.fst = .active ∧ s.idx.toNat ≤ 5 ∧ t.crc = crc8Update s.crc b) := by
  rcases clockEdge_write_cases h with hsame | ⟨hrst, rfl⟩ | ⟨hacc, rfl⟩ | ⟨v, ⟨hacc, rfl⟩ | ⟨b, hacc, rfl⟩, hs, rfl⟩ |
    ⟨k, b, -, -, rfl⟩ | ⟨b, k, hacc, ha, hk, rfl⟩ | ⟨b, -, -, -, rfl⟩
  · exact absurd (congrArg State.crc hsame) hcrc
  · exact .inl ⟨hrst, rfl⟩
  · exact .inr (.inr (.inl ⟨hacc, rfl⟩))
  · exact .inr (.inl ⟨hacc, hs, rfl⟩)
  · exact .inr (.inr (.inr (.inl ⟨b, hacc, hs, rfl⟩)))
  · exact absurd rfl hcrc
  · exact .inr (.inr (.inr (.inr ⟨b, hacc, ha, by omega, rfl⟩)))
  · exact absurd rfl hcrc

/-- Settles O38: of all an edge can write, these are the writes to CRC. -/
theorem writersOfCrc : Obligations.WritersOfCrc := fun s _ _ rest hedges hstep hcrc =>
  clockEdge_crc_writers (s := { s with edges := rest }) (clockEdge_of_step hedges hstep) hcrc

/-- Settles O39: no guard looks at CRC, so the same case is taken, and only the checksum byte's comparison carries CRC into another
register. -/
theorem crcReadOnlyByComparison : Obligations.CrcReadOnlyByComparison := by
  intro i s t v h
  rcases exec_next_cases h with ⟨rfl, rfl⟩ | ⟨rfl, rfl⟩ | ⟨rfl, rfl⟩ | ⟨hi, ha, rfl⟩ | ⟨rfl, hs, rfl⟩ | ⟨b, rfl, hs, rfl⟩ |
    ⟨k, b, rfl, hs, rfl⟩ | ⟨b, rfl, hs, rfl⟩ | ⟨b, k, rfl, ha, hk, rfl⟩ | ⟨b, rfl, ha, hidx, rfl⟩
  · exact ⟨_, exec_nop (setCrc v _), rfl, fun hne => absurd rfl hne⟩
  · exact ⟨_, exec_errClr (setCrc v s), rfl, fun hne => absurd rfl hne⟩
  · exact ⟨_, exec_frmStart (setCrc v s), rfl, fun hne => absurd rfl hne⟩
  · exact ⟨_, exec_conflict (s := setCrc v s) hi ha, rfl, fun hne => absurd rfl hne⟩
  · exact ⟨_, exec_crcInit (s := setCrc v s) hs, rfl, fun hne => absurd rfl hne⟩
  · exact ⟨_, exec_crcFeed (s := setCrc v s) hs b, rfl, fun hne => absurd rfl hne⟩
  · exact ⟨_, exec_payWr (s := setCrc v s) hs k b, rfl, fun hne => absurd rfl hne⟩
  · exact ⟨_, exec_frmPush_not_active (s := setCrc v s) hs b, rfl, fun hne => absurd rfl hne⟩
  · exact ⟨_, exec_frmPush_payload (s := setCrc v s) ha hk b, rfl, fun hne => absurd rfl hne⟩
  · exact ⟨_, exec_frmPush_checksum (s := setCrc v s) ha hidx b, rfl, fun _ => ⟨⟨b, rfl⟩, ha, hidx⟩⟩

/-! ### The payload registers and CHK (R15, R16) -/

/-- Only the register written can change, and it then holds the byte written. -/
theorem eq_of_read_write_ne {p : Payload} {j k : Fin 6} {b : Byte} (h : (p.write k b).read j ≠ p.read j) :
    j = k ∧ (p.write k b).read j = b := by
  rw [read_write] at h ⊢
  split_ifs at h ⊢ with hjk
  · exact ⟨hjk, rfl⟩
  · exact absurd rfl h

theorem clockEdge_payload_writers {e : Edge} {s t : State} (h : clockEdge e s = .next t) {j : Fin 6}
    (hread : t.payload.read j ≠ s.payload.read j) :
    (e.rst = true ∧ t.payload.read j = 0x00#8) ∨
    (s.fst ≠ .active ∧ Accepts e (payWrCommand j (t.payload.read j))) ∨
    (s.fst = .active ∧ s.idx.toNat = j.val ∧ Accepts e (.frmPush (t.payload.read j))) := by
  rcases clockEdge_write_cases h with hsame | ⟨hrst, rfl⟩ | ⟨-, rfl⟩ | ⟨v, -, -, rfl⟩ | ⟨k, b, hacc, hs, rfl⟩ |
    ⟨b, k, hacc, ha, hk, rfl⟩ | ⟨b, -, -, -, rfl⟩
  · exact absurd (congrArg (fun u => u.payload.read j) hsame) hread
  · exact .inl ⟨hrst, by fin_cases j <;> rfl⟩
  · exact absurd rfl hread
  · exact absurd rfl hread
  · obtain ⟨rfl, hb⟩ := eq_of_read_write_ne hread
    exact .inr (.inl ⟨hs, by rwa [writePayloadDirect_payload, hb]⟩)
  · obtain ⟨rfl, hb⟩ := eq_of_read_write_ne hread
    exact .inr (.inr ⟨ha, hk, by rwa [takePayloadByte_payload, hb]⟩)
  · exact absurd rfl hread

/-- In ACTIVE the invariants leave no index past 6. -/
theorem idx_eq_six {s : State} (hinv : Inv s) (ha : s.fst = .active) (hidx : 6 ≤ s.idx.toNat) : s.idx = 6#3 :=
  BitVec.eq_of_toNat_eq (le_antisymm (hinv.active_idx ha) hidx)

theorem clockEdge_chk_writers {e : Edge} {s t : State} (hinv : Inv s) (h : clockEdge e s = .next t) (hchk : t.chk ≠ s.chk) :
    (e.rst = true ∧ t.chk = 0x00#8) ∨ (s.fst = .active ∧ s.idx = 6#3 ∧ Accepts e (.frmPush t.chk)) := by
  rcases clockEdge_write_cases h with hsame | ⟨hrst, rfl⟩ | ⟨-, rfl⟩ | ⟨v, -, -, rfl⟩ | ⟨k, b, -, -, rfl⟩ |
    ⟨b, k, -, -, -, rfl⟩ | ⟨b, hacc, ha, hidx, rfl⟩
  · exact absurd (congrArg State.chk hsame) hchk
  · exact .inl ⟨hrst, rfl⟩
  · exact absurd rfl hchk
  · exact absurd rfl hchk
  · exact absurd rfl hchk
  · exact absurd rfl hchk
  · exact .inr ⟨ha, idx_eq_six hinv ha hidx, hacc⟩

/-- Settles O40: of all an edge can write, these are the writes to the payload registers and to CHK. -/
theorem writersOfPayloadAndChk : Obligations.WritersOfPayloadAndChk := by
  intro s t e rest hinv hedges hstep
  have hedge := clockEdge_of_step hedges hstep
  have hchk := clockEdge_chk_writers (inv_with_edges rest hinv) hedge
  exact ⟨fun _ => clockEdge_payload_writers hedge, hchk⟩

/-! ### FST, IDX and MATCH (R17, R18, R19) -/

theorem clockEdge_fst_writers {e : Edge} {s t : State} (hinv : Inv s) (h : clockEdge e s = .next t) (hfst : t.fst ≠ s.fst) :
    (t.fst = .active ∧ Accepts e .frmStart) ∨
    (t.fst = .done ∧ s.fst = .active ∧ s.idx = 6#3 ∧ ∃ b, Accepts e (.frmPush b)) ∨
    (t.fst = .idle ∧ (e.rst = true ∨ (s.fst = .done ∧ ∃ k b, Accepts e (payWrCommand k b)))) := by
  rcases clockEdge_write_cases h with hsame | ⟨hrst, rfl⟩ | ⟨hacc, rfl⟩ | ⟨v, -, -, rfl⟩ | ⟨k, b, hacc, hs, rfl⟩ |
    ⟨b, k, -, -, -, rfl⟩ | ⟨b, hacc, ha, hidx, rfl⟩
  · exact absurd (congrArg State.fst hsame) hfst
  · exact .inr (.inr ⟨rfl, .inl hrst⟩)
  · exact .inl ⟨rfl, hacc⟩
  · exact absurd rfl hfst
  · -- PAY.WR changes FST to IDLE, outside ACTIVE: it was DONE.
    have hdone : s.fst = .done := by
      cases hcode : s.fst with
      | idle => exact absurd hcode.symm hfst
      | active => exact absurd hcode hs
      | done => rfl
    exact .inr (.inr ⟨rfl, .inr ⟨hdone, k, b, hacc⟩⟩)
  · exact absurd rfl hfst
  · exact .inr (.inl ⟨rfl, ha, idx_eq_six hinv ha hidx, b, hacc⟩)

theorem clockEdge_idx_writers {e : Edge} {s t : State} (hinv : Inv s) (h : clockEdge e s = .next t) (hidx : t.idx ≠ s.idx) :
    (t.idx = 0#3 ∧ (e.rst = true ∨ Accepts e .frmStart ∨ (s.fst ≠ .active ∧ ∃ k b, Accepts e (payWrCommand k b)))) ∨
    (t.idx.toNat = s.idx.toNat + 1 ∧ s.fst = .active ∧ ∃ b, Accepts e (.frmPush b)) := by
  rcases clockEdge_write_cases h with hsame | ⟨hrst, rfl⟩ | ⟨hacc, rfl⟩ | ⟨v, -, -, rfl⟩ | ⟨k, b, hacc, hs, rfl⟩ |
    ⟨b, k, hacc, ha, hk, rfl⟩ | ⟨b, hacc, ha, hsix, rfl⟩
  · exact absurd (congrArg State.idx hsame) hidx
  · exact .inl ⟨rfl, .inl hrst⟩
  · exact .inl ⟨rfl, .inr (.inl hacc)⟩
  · exact absurd rfl hidx
  · exact .inl ⟨rfl, .inr (.inr ⟨hs, k, b, hacc⟩)⟩
  · exact .inr ⟨by rw [takePayloadByte_idx, idx_succ_toNat hk, hk], ha, b, hacc⟩
  · exact .inr ⟨by rw [idx_eq_six hinv ha hsix]; rfl, ha, b, hacc⟩

theorem clockEdge_matched_writers {e : Edge} {s t : State} (hinv : Inv s) (h : clockEdge e s = .next t)
    (hmatched : t.matched ≠ s.matched) :
    (t.matched = true ∧ s.fst = .active ∧ s.idx = 6#3 ∧ Accepts e (.frmPush s.crc)) ∨
    (t.matched = false ∧ (e.rst = true ∨ Accepts e .frmStart ∨ (s.fst ≠ .active ∧ ∃ k b, Accepts e (payWrCommand k b)))) := by
  rcases clockEdge_write_cases h with hsame | ⟨hrst, rfl⟩ | ⟨hacc, rfl⟩ | ⟨v, -, -, rfl⟩ | ⟨k, b, hacc, hs, rfl⟩ |
    ⟨b, k, -, -, -, rfl⟩ | ⟨b, hacc, ha, hidx, rfl⟩
  · exact absurd (congrArg State.matched hsame) hmatched
  · exact .inr ⟨rfl, .inl hrst⟩
  · exact .inr ⟨rfl, .inr (.inl hacc)⟩
  · exact absurd rfl hmatched
  · exact .inr ⟨rfl, .inr (.inr ⟨hs, k, b, hacc⟩)⟩
  · exact absurd rfl hmatched
  · -- In ACTIVE MATCH was 0, so the comparison has made it 1: the byte is CRC.
    have hold : s.matched = false := Bool.eq_false_iff.mpr fun hm => by simp [hinv.matched_done hm] at ha
    have hnew : checksumMatches s.crc b = true := by simpa [hold] using hmatched
    obtain rfl := (checksumMatches_iff s.crc b).mp hnew
    exact .inl ⟨hnew, ha, idx_eq_six hinv ha hidx, hacc⟩

/-- Settles O41: of all an edge can write, these are the changes of FST, IDX and MATCH. -/
theorem writersOfFrameState : Obligations.WritersOfFrameState := by
  intro s t e rest hinv hedges hstep
  have hedge := clockEdge_of_step hedges hstep
  have hinv' : Inv { s with edges := rest } := inv_with_edges rest hinv
  have hfst := clockEdge_fst_writers hinv' hedge
  have hidx := clockEdge_idx_writers hinv' hedge
  have hmatched := clockEdge_matched_writers hinv' hedge
  exact ⟨hfst, hidx, hmatched⟩

/-! ### ERR and ECAUSE (R20) -/

/-- The three causes, written out (R70, R71, R72). -/
theorem exists_raises_iff (fst : FrameState) (e : Edge) : (∃ c, Raises c fst e) ↔
    PresentsReserved e ∨ (fst ≠ .active ∧ ∃ b, Accepts e (.frmPush b)) ∨
      (fst = .active ∧ ∃ i, Accepts e i ∧ conflictsWithFrame i = true) := by
  constructor
  · rintro ⟨_ | _ | _, h⟩
    · exact .inl h
    · exact .inr (.inl h)
    · exact .inr (.inr h)
  · rintro (h | h | h)
    · exact ⟨.illegalCmd, h⟩
    · exact ⟨.frameSeq, h⟩
    · exact ⟨.frameConflict, h⟩

/-- An error action that changes a flag finds ERR clear. -/
theorem no_error_of_raiseError_changes {c : Cause} {s : State}
    (h : (raiseError c s).err ≠ s.err ∨ (raiseError c s).ecause ≠ s.ecause) : s.err = false := by
  by_contra hset
  rw [Bool.not_eq_false] at hset
  simp [raiseError_of_err hset] at h

theorem clockEdge_flag_writers {e : Edge} {s t : State} (h : clockEdge e s = .next t)
    (hchange : t.err ≠ s.err ∨ t.ecause ≠ s.ecause) :
    (t.err = true ∧ s.err = false ∧ t.ecause ≠ .none ∧ ∃ c, Raises c s.fst e) ∨
    (t.err = false ∧ t.ecause = .none ∧ (e.rst = true ∨ Accepts e .errClr)) := by
  rcases clockEdge_flag_cases h with ⟨c, hc, rfl⟩ | ⟨hedge, herr, hecause⟩ | ⟨herr, hecause⟩
  · have hs : s.err = false := no_error_of_raiseError_changes hchange
    refine .inl ⟨rfl, hs, ?_, c, hc⟩
    rw [raiseError_ecause_of_no_error hs]
    exact recorded_ne_none c
  · exact .inr ⟨herr, hecause, hedge⟩
  · exact absurd hchange (by simp [herr, hecause])

/-- Settles O42: an edge raises a cause, clears both flags, or leaves them; raising a cause with ERR set changes nothing. -/
theorem writersOfErrorFlags : Obligations.WritersOfErrorFlags := by
  intro s t e rest hedges hstep hchange
  rw [← exists_raises_iff]
  exact clockEdge_flag_writers (s := { s with edges := rest }) (clockEdge_of_step hedges hstep) hchange

/-! ### A frame among stray commands (R72) -/

/-- A frame is in progress: `frame` has been received, and CRC is its checksum. -/
structure Receiving (frame : List Byte) (s : State) : Prop where
  active : s.fst = .active
  holds : HoldsFrame frame s
  meaning : FrameInv s

theorem pushedByte_of_accepts_frmPush {e : Edge} {b : Byte} (h : Accepts e (.frmPush b)) : pushedByte e = some b := by
  simp [pushedByte, acceptedCommand_of_accepts h]

/-- While the frame has room for what it pushes, an edge without reset leaves it active. -/
theorem clockEdge_keeps_active {e : Edge} {s t : State} (hrst : e.rst = false) (ha : s.fst = .active)
    (hroom : ∀ b, pushedByte e = some b → s.idx.toNat < 6) (h : clockEdge e s = .next t) : t.fst = .active := by
  rcases clockEdge_write_cases h with hsame | ⟨hreset, -⟩ | ⟨-, rfl⟩ | ⟨v, -, hs, -⟩ | ⟨k, b, -, hs, -⟩ |
    ⟨b, k, -, -, -, rfl⟩ | ⟨b, hacc, -, hidx, -⟩
  · exact (congrArg State.fst hsame).trans ha
  · simp [hrst] at hreset
  · rfl
  · exact absurd ha hs
  · exact absurd ha hs
  · exact ha
  · have := hroom b (pushedByte_of_accepts_frmPush hacc)
    omega

/-- Without reset and FRM.START the tracked frame grows by the byte pushed, while it has room. -/
theorem trackFrame_eq_append {e : Edge} {frame : List Byte} (hrst : e.rst = false) (hstart : acceptedCommand e ≠ some .frmStart)
    (hroom : frame.length < 7) : trackFrame frame e = frame ++ (pushedByte e).toList := by
  cases hcmd : acceptedCommand e with
  | none => simp [trackFrame_of_no_command hrst hcmd, pushedByte, hcmd]
  | some i =>
    rw [trackFrame_accepts (accepts_of_acceptedCommand hcmd)]
    cases i with
    | frmStart => exact absurd hcmd hstart
    | frmPush b => simp [trackCommand_frmPush hroom, pushedByte, hcmd]
    | _ => simp [trackCommand, pushedByte, hcmd]

theorem clockEdge_receiving {e : Edge} {frame : List Byte} {s t : State} (hrst : e.rst = false)
    (hstart : acceptedCommand e ≠ some .frmStart) (hroom : (frame ++ (pushedByte e).toList).length ≤ 6)
    (hs : Receiving frame s) (h : clockEdge e s = .next t) : Receiving (frame ++ (pushedByte e).toList) t where
  active := by
    obtain ⟨hlen, -⟩ := hs.holds.active_bytes hs.active
    refine clockEdge_keeps_active hrst hs.active (fun b hb => ?_) h
    rw [hb, List.length_append, Option.toList_some, List.length_singleton] at hroom
    omega
  holds := by
    rw [List.length_append] at hroom
    rw [← trackFrame_eq_append hrst hstart (by omega)]
    exact clockEdge_keeps_holdsFrame hs.holds h
  meaning := clockEdge_keeps_frameInv hs.meaning h

/-- A run goes on from what its first part answers. -/
theorem runEdges_append {es : List Edge} {s t : State} (fs : List Edge) (h : runEdges es s = .next t) :
    runEdges (es ++ fs) s = runEdges fs t := by
  induction es generalizing s with
  | nil =>
    cases h
    rfl
  | cons e es ih =>
    obtain ⟨u, hu⟩ := clockEdge_answers e s
    rw [runEdges_cons_of_clockEdge es hu] at h
    rw [List.cons_append, runEdges_cons_of_clockEdge _ hu, ih h]

/-- Edges without reset and FRM.START add the bytes they push to the frame in progress, up to six. -/
theorem runEdges_receiving {es : List Edge} {frame : List Byte} {s : State}
    (hes : ∀ e ∈ es, e.rst = false ∧ acceptedCommand e ≠ some .frmStart)
    (hroom : (frame ++ es.filterMap pushedByte).length ≤ 6) (hs : Receiving frame s) :
    ∃ t, runEdges es s = .next t ∧ Receiving (frame ++ es.filterMap pushedByte) t := by
  induction es generalizing frame s with
  | nil =>
    rw [List.filterMap_nil, List.append_nil]
    exact ⟨_, runEdges_nil s, hs.active, holdsFrame_with_edges [] hs.holds, frameInv_with_edges [] hs.meaning⟩
  | cons e es ih =>
    obtain ⟨⟨hrst, hstart⟩, htail⟩ := List.forall_mem_cons.mp hes
    have hsplit : frame ++ (e :: es).filterMap pushedByte = frame ++ (pushedByte e).toList ++ es.filterMap pushedByte := by
      cases hb : pushedByte e <;> simp [hb]
    rw [hsplit] at hroom ⊢
    obtain ⟨u, hu⟩ := clockEdge_answers e s
    rw [runEdges_cons_of_clockEdge es hu]
    have hfirst : (frame ++ (pushedByte e).toList).length ≤ 6 := by
      rw [List.length_append] at hroom
      omega
    exact ih htail hroom (clockEdge_receiving hrst hstart hfirst hs hu)

/-- Settles O31: the stray edges add nothing to the frame in progress, so its checksum byte finds the six bytes and their checksum. -/
theorem frameSurvivesStrayCommands : Obligations.FrameSurvivesStrayCommands := by
  rintro s es bs c hes rfl hlen
  have hstart : Receiving [] (startFrame s) := ⟨rfl, holdsFrame_startFrame s, frameInv_startFrame s⟩
  obtain ⟨u, hrun, hu⟩ := runEdges_receiving hes (by simp [hlen]) hstart
  obtain ⟨hidx, hbytes⟩ := hu.holds.active_bytes hu.active
  have hsix : 6 ≤ u.idx.toNat := by rw [← hidx, List.nil_append, hlen]
  rw [received_eq_bytes hsix, List.nil_append] at hbytes
  have hcrc : u.crc = computeChecksum (es.filterMap pushedByte) := by
    rw [hu.meaning.active_crc hu.active, received_eq_bytes hsix, hbytes]
  have hlast : runEdges [.ofWord (encode (.frmPush c))] u = .next { takeChecksumByte c u with edges := [] } :=
    runEdges_cons_of_clockEdge [] (clockEdge_frmPush_checksum hu.active hsix c)
  refine ⟨{ takeChecksumByte c u with edges := [] }, ?_, hcrc, hbytes, rfl, rfl, rfl, ?_⟩
  · rw [List.cons_append, runEdges_cons_of_clockEdge _ (clockEdge_accepts (accepts_ofWord_encode .frmStart) s),
      runEdges_append _ hrun, hlast]
  · rw [← hcrc]
    exact checksumMatches_iff u.crc c

end Sys2Proof.Machine
